-- ==== Sys2Proof/Word.lean ====
section
/-! DEFINITION. Word.lean: the two word types of the part: a byte of a link, and a show-clock reading. -/

namespace Sys2Proof

/-- One byte of a frame, on a control link or on a fixture line (chapter 12). -/
abbrev Byte := BitVec 8

/-- A reading of the 32-bit show clock, in milliseconds, wrapping at 2^32 (R106). -/
abbrev Reading := BitVec 32

end Sys2Proof
end

