-- ==== Sys2Proof/Syntax.lean ====
section
/-! DEFINITION. Syntax.lean: the commands of the part, one constructor per row of spec/opcode_table.json, and the
operands they carry. A request row carries the link alone: the request it takes is the frame that State holds in hand
on that link (R4). A row for something the outside does carries what the outside did. -/

namespace Sys2Proof

/-- The four control links (section 1.1 of the introduction). -/
inductive Link where
  | cl0 | cl1 | cl2 | cl3
  deriving DecidableEq, Repr

/-- A fixture line FL0–FL5. -/
abbrev LineNo := Fin 6

/-- A slot number 0–191. -/
abbrev SlotNo := Fin 192

/-- The three groups of a slot (section 3 of the introduction). -/
inductive Group where
  | aim | colour | level
  deriving DecidableEq, Repr

/-- A character as a receiver hears it: its eight data bits, and whether its stop bit was good (R1, R140). -/
structure RxChar where
  byte   : Byte
  stopOk : Bool
  deriving DecidableEq, Repr

/-- What puts the part into reset (R161). -/
inductive ResetCause where
  | supplyRise
  | resetNLow
  deriving DecidableEq, Repr

/-- A stamp that R106 lets become old: a crossfade record's start time, a last-sent time, a poll time, a last-call
time or a follower reference time. -/
inductive StampRef where
  | crossfade (slot : SlotNo) (group : Group)
  | lastSent (slot : SlotNo)
  | poll (slot : SlotNo)
  | lastCall (line : LineNo)
  | follower (slot : SlotNo)
  deriving DecidableEq, Repr

/-- The commands: one constructor per row of the table, in the table's order. -/
inductive Instr where
  /-- POWER_ON_RESET (R161) -/
  | powerOnReset (cause : ResetCause)
  /-- LEAVE_RESET (R161) -/
  | leaveReset
  /-- FRAME_ARRIVAL (R1, R2): the run of characters heard on the link, ended by 50 µs of idle -/
  | frameArrival (link : Link) (chars : List RxChar)
  /-- SILENCE_TIMEOUT (R11) -/
  | silenceTimeout (link : Link)
  /-- TRANSMIT_START (R10) -/
  | transmitStart (link : Link)
  /-- TRANSMIT_DONE (R10) -/
  | transmitDone (link : Link)
  /-- UNKNOWN_KIND (R5) -/
  | unknownKind (link : Link)
  /-- SEIZE (R62) -/
  | seize (link : Link)
  /-- RELEASE (R65) -/
  | release (link : Link)
  /-- STEP_REPLACE (R95) -/
  | stepReplace (link : Link)
  /-- STEP_APPEND (R96) -/
  | stepAppend (link : Link)
  /-- HALT (R102) -/
  | halt (link : Link)
  /-- SET_MODE (R103) -/
  | setMode (link : Link)
  /-- STEP_EXPIRY (R97): the head of the expiry list falls due -/
  | stepExpiry
  /-- HANDOVER_ASK (R82) -/
  | handoverAsk (link : Link)
  /-- HANDOVER_DECLINE (R83) -/
  | handoverDecline (link : Link)
  /-- HANDOVER_GIVE (R84) -/
  | handoverGive (link : Link)
  /-- OVERRIDE_ON (R79) -/
  | overrideOn (link : Link)
  /-- OVERRIDE_OFF (R80) -/
  | overrideOff (link : Link)
  /-- SET_PAIR (R87) -/
  | setPair (link : Link)
  /-- SAFE_CLEAR (R156) -/
  | safeClear (link : Link)
  /-- SET_LINE (R136) -/
  | setLine (link : Link)
  /-- ENROL_LINE_FULL (R38) -/
  | enrolLineFull (link : Link)
  /-- ENROL_LINE_JOIN (R38) -/
  | enrolLineJoin (link : Link)
  /-- SET_TYPE (R29) -/
  | setType (link : Link)
  /-- FORGET (R32) -/
  | forget (link : Link)
  /-- SET_LINK (R12) -/
  | setLink (link : Link)
  /-- RIG_CLEAR (R75) -/
  | rigClear (link : Link)
  /-- KEEP (R17) -/
  | keep (link : Link)
  /-- READ_SLOT (R34) -/
  | readSlot (link : Link)
  /-- READ_CLAIMS (R74) -/
  | readClaims (link : Link)
  /-- READ_LINE (R149) -/
  | readLine (link : Link)
  /-- READ_TYPE (R31) -/
  | readType (link : Link)
  /-- READ_PART (R18) -/
  | readPart (link : Link)
  /-- SCHEDULER_PICK (R145) -/
  | schedulerPick (line : LineNo)
  /-- ENROL_FRAME_START (R138) -/
  | enrolFrameStart (line : LineNo)
  /-- LINE_FRAME_END (R138) -/
  | lineFrameEnd (line : LineNo)
  /-- REPLY_END (R140): the characters of the reply -/
  | replyEnd (line : LineNo) (reply : List RxChar)
  /-- REPLY_WINDOW_EXPIRY (R139) -/
  | replyWindowExpiry (line : LineNo)
  /-- LATE_CHARACTERS (R141) -/
  | lateCharacters (line : LineNo)
  /-- DROP_DONE (R40) -/
  | dropDone (line : LineNo)
  /-- CALL_DONE (R41) -/
  | callDone (line : LineNo)
  /-- ARBITRATION_END (R41): the 40 samples, the first the most significant -/
  | arbitrationEnd (line : LineNo) (samples : BitVec 40)
  /-- ASSIGN_DONE (R43) -/
  | assignDone (line : LineNo)
  /-- CAPS_RECEIVED (R44): the characters of the reply -/
  | capsReceived (line : LineNo) (reply : List RxChar)
  /-- CAPS_WINDOW_EXPIRY (R43) -/
  | capsWindowExpiry (line : LineNo)
  /-- SAFE_N_CHANGE (R153): the new raw level -/
  | safeNChange (high : Bool)
  /-- SAFETY_ASSERTION (R155) -/
  | safetyAssertion
  /-- SAFETY_RELEASE (R155) -/
  | safetyRelease
  /-- CAPS_FAILURE (R43): the characters of the reply -/
  | capsFailure (line : LineNo) (reply : List RxChar)
  /-- STAMP_BECOMES_OLD (R106) -/
  | stampBecomesOld (which : StampRef)
  /-- RESET_N_CHANGE (R161): the new raw level -/
  | resetNChange (high : Bool)
  deriving DecidableEq, Repr

end Sys2Proof
end

