-- ==== Sys2Proof/Decode.lean ====
section
/-! DEFINITION. Decode.lean: the command that a word spells by the table's bits. No row of spec/opcode_table.json gives
bits ("fields" is empty in every row), so no word spells a command. The frames that do carry requests are decoded in
Machine/Operands.lean, by R159. -/

namespace Sys2Proof

/-- The command spelled by the table's bits: the table gives bits to no row, so there is none for any word. -/
def decodeTableWord (_nbits _w : Nat) : Option Instr := none

end Sys2Proof
end

