-- ==== Sys2Proof/Config.lean ====
section
/-! DEFINITION. Config.lean: the sizes the manual fixes for every part, and the byte codes it leaves unstated,
and the emitter levels it calls not meaningful, as constants that have no body. -/

namespace Sys2Proof.Config

/-- R55: the claim pool has 1024 records. -/
def claimRecords : Nat := 1024
/-- R90: the step pool has 4096 records. -/
def stepRecords : Nat := 4096
/-- R3: a request queue holds up to four frames. -/
def requestQueueSize : Nat := 4
/-- R9: a notice queue holds up to 16 notices. -/
def noticeQueueSize : Nat := 16
/-- R90, R93: a pending queue holds up to 8 steps. -/
def pendingQueueSize : Nat := 8
/-- R117: the longest duration, dwell or fade, in milliseconds. -/
def longestTime : Nat := 600000
/-- R18: the part code of the AC-192. -/
def partCode : Nat := 0x00C0
/-- R18: the revision this manual describes. -/
def revision : Nat := 1

/-- The coded items of answers and notices for which chapter 12 states neither a code nor a width: its field table has no
row for them and its numbering sentence names none of their sorts. One byte each is the model's choice (log entry 12). -/
inductive UnstatedCode where
  /-- the flag a FIXTURE_CONDITION notice carries (R151), by its place in R151's order -/
  | fixtureCondition (place : Nat)
  /-- the condition a LINE_CONDITION notice carries (R152), by its place in R152's table -/
  | lineCondition (place : Nat)
  /-- the word entered of R151 and R152 -/
  | entered
  /-- the word left of R151 and R152 -/
  | left
  /-- the operation READ_LINE reports (R149, R37), by its place in R37's table -/
  | operation (place : Nat)
  /-- the phase MOVING of a running step in READ_CLAIMS (R74, R91) -/
  | moving
  /-- the phase DWELLING of a running step in READ_CLAIMS (R74, R91) -/
  | dwelling
  deriving DecidableEq, Repr

/-- FREE VALUE (log entry 12): the byte that stands for an item of `UnstatedCode`; nothing constrains it. -/
opaque unstatedCode : UnstatedCode → Byte

/-- FREE VALUE (log entry 15): the emitter level that stands in a place of READ_SLOT's last-sent record beyond the
emitter count; section 12.1 says that it is not meaningful, and nothing constrains it. -/
opaque unsentLevel : Nat → BitVec 16

end Sys2Proof.Config
end

