-- ==== Sys2Proof/Machine/State.lean ====
section
/-! DEFINITION. Machine/State.lean: every piece of state the manual gives the part, as plain data, the reasons a step
can stop, and the state right after power-on reset. Types and values only: what acts on them is in the other files of
Machine/. -/

namespace Sys2Proof.Machine

/-! ## Values, stamps and the small name types -/

/-- A value of a group: one number of 0–65535 per component, two for AIM, three for COLOUR, one for LEVEL (R55). -/
abbrev Value := List Nat

/-- A stamp that the rules compare with a duration or a period: the reading at which it was set, and whether 2^31 ms
have passed since (R106). -/
structure Stamp where
  reading : Reading
  old     : Bool
  deriving DecidableEq, Repr

/-- One item for each of the three groups of a slot. -/
structure PerGroup (α : Type) where
  aim    : α
  colour : α
  level  : α
  deriving DecidableEq, Repr

/-- The four line rates, in kbit/s (R135). -/
inductive Rate where
  | r250 | r500 | r1000 | r2000
  deriving DecidableEq, Repr

/-- The curves of a step (R90). -/
inductive Curve where
  | linear | easeIn | easeOut | easeInOut | snap | snapEnd
  deriving DecidableEq, Repr

/-- The mode of a claim (R55). -/
inductive Mode where
  | oneShot | loop
  deriving DecidableEq, Repr

/-- The role of a claim (R55, R60). -/
inductive Role where
  | live | shadow
  deriving DecidableEq, Repr

/-- The phase of a running step (R91). -/
inductive Phase where
  | moving | dwelling
  deriving DecidableEq, Repr

/-- How a claim stands in its stack (R58, R74). -/
inductive Standing where
  | owner | held | shadow
  deriving DecidableEq, Repr

/-- The state of a slot (R20). -/
inductive SlotState where
  | free | online | missing
  deriving DecidableEq, Repr

/-- The flags of a fixture's condition set, in the order of R151. -/
inductive FixtureCondition where
  | motorStall | overTemperature | emitterFault | positionLost | fanFault
  deriving DecidableEq, Repr

/-- The line conditions, in the order of R152. -/
inductive LineCondition where
  | enrolFailed | tableFull | duplicateId | wrongAddress
  deriving DecidableEq, Repr

/-- The states of the Safety Layer (R154). -/
inductive SafetyState where
  | clear | holding | latched
  deriving DecidableEq, Repr

/-- The cause a SAFETY_CHANGED notice carries (R155, R156). -/
inductive SafetyCause where
  | asserted | released | cleared
  deriving DecidableEq, Repr

/-! ## Slots and types (Fixture Slots and Types) -/

/-- A fixture condition set (R19): which of the five flags are present. -/
structure ConditionSet where
  motorStall      : Bool
  overTemperature : Bool
  emitterFault    : Bool
  positionLost    : Bool
  fanFault        : Bool
  deriving DecidableEq, Repr

/-- The last-sent record of a slot (R25). -/
structure LastSent where
  pan    : Nat
  tilt   : Nat
  levels : List Nat
  time   : Stamp
  deriving DecidableEq, Repr

/-- The fields of a slot record that are absent, or empty, or 0 while the slot is FREE, and present while it is bound
(R19, R118); with the slot's poll time (R37). A slot is FREE exactly when it holds none of them. -/
structure Fixture where
  online     : Bool
  uniqueId   : BitVec 40
  line       : LineNo
  address    : Nat
  typeCode   : BitVec 16
  typeIndex  : Option (Fin 16)
  emitters   : Nat
  maxRate    : Rate
  panSpeed   : Nat
  tiltSpeed  : Nat
  refPan     : Nat
  refTilt    : Nat
  refTime    : Stamp
  lastSent   : Option LastSent
  conditions : ConditionSet
  misses     : Nat
  pollTime   : Option Stamp
  deriving DecidableEq, Repr

/-- The four flags of a slot (R26). -/
structure SlotFlags where
  changed : Bool
  urgent  : Bool
  lagging : Bool
  gamut   : Bool
  deriving DecidableEq, Repr

/-- A crossfade record of a slot group (R67). -/
structure Crossfade where
  fromValue : Value
  start     : Stamp
  duration  : Nat
  deriving DecidableEq, Repr

/-- What the part holds under one slot number: the slot record (R19), with the parked values (R24), the flags (R26),
and the crossfade records the Claim Resolver holds for the slot's groups (R67). -/
structure Slot where
  fixture : Option Fixture
  parked  : PerGroup Value
  fades   : PerGroup (Option Crossfade)
  flags   : SlotFlags
  deriving DecidableEq, Repr

/-- One row of a colour matrix: the weights of c1, c2 and c3, each the coefficient times 16384 (R27). -/
structure MatrixRow where
  c1 : Int
  c2 : Int
  c3 : Int
  deriving DecidableEq, Repr

/-- A colour matrix: five rows, emitter 1 first (R27). -/
abbrev Matrix := Vector MatrixRow 5

/-- An in-use entry of the Type Table (R27). -/
structure TypeEntry where
  code   : BitVec 16
  matrix : Matrix
  deriving DecidableEq, Repr

/-! ## Claims and steps (Claims and Tiers; Steps and Step Queues) -/

/-- A step record in use (R90), with its number in the step pool. -/
structure Step where
  record   : Nat
  target   : Value
  duration : Nat
  dwell    : Nat
  curve    : Curve
  tie      : Bool
  deriving DecidableEq, Repr

/-- A running step with the items it gains at its start (R91). -/
structure RunningStep where
  step       : Step
  startValue : Value
  startTime  : Reading
  adjusted   : Curve
  expiry     : Reading
  deriving DecidableEq, Repr

/-- A claim record in use (R55). The tier follows from the link and is not held again. `takenOrder` is the place of the
taken stamp in the order in which the Claim Resolver set the stamps (R57). -/
structure Claim where
  number     : Nat
  slot       : SlotNo
  group      : Group
  link       : Link
  role       : Role
  mode       : Mode
  rest       : Value
  running    : Option RunningStep
  queue      : List Step
  lowMark    : Nat
  armed      : Bool
  taken      : Reading
  takenOrder : Nat
  deriving DecidableEq, Repr

/-- An entry of the expiry list: a claim, and the expiry time of its running step (R97). -/
structure ExpiryEntry where
  claim : Nat
  time  : Reading
  deriving DecidableEq, Repr

/-! ## The console pair -/

/-- The two console links: side A is CL0, side B is CL1. -/
inductive Console where
  | a | b
  deriving DecidableEq, Repr

/-- The pair record (R76). -/
structure Pair where
  active       : Console
  override     : Bool
  askPending   : Bool
  failoverFade : Nat
  deriving DecidableEq, Repr

/-- The cause a PAIR_CHANGED notice carries (R86). -/
inductive PairCause where
  | give | failover | standbyLive | overrideOn | overrideOff | standbySilent
  deriving DecidableEq, Repr

/-! ## The fixture lines (Line Sequencer and Scheduling; Enrolment and Joining) -/

/-- The sequencer states (R137). -/
inductive SeqState where
  | off | idle | sending | awaiting | enrolling
  deriving DecidableEq, Repr

/-- The operations of an enrolment record (R37). -/
inductive Operation where
  | none | full | join | joining
  deriving DecidableEq, Repr

/-- The sub-states of an enrolment record (R37). -/
inductive SubState where
  | dropping | calling | arbitrating | assigning
  deriving DecidableEq, Repr

/-- How an operation ends (R39). -/
inductive EnrolOutcome where
  | complete | stopped | abandoned
  deriving DecidableEq, Repr

/-- The cause a FIXTURE_GONE notice carries (R50). -/
inductive GoneCause where
  | misses | dropped | lineOff
  deriving DecidableEq, Repr

/-- A fixture given up (R42, R43, R45): the address of the DROP that is still to be sent or is being sent, and the
condition with which the operation stops at its last character (R39). -/
structure GiveUp where
  address   : Nat
  condition : LineCondition
  deriving DecidableEq, Repr

/-- The enrolment record of a line (R37), with the fixture being given up, if there is one (R39). -/
structure EnrolRecord where
  operation : Operation
  subState  : Option SubState
  captured  : Option (BitVec 40)
  offered   : Option Nat
  attempt   : Option Nat
  bound     : Nat
  giveUp    : Option GiveUp
  deriving DecidableEq, Repr

/-- The frames the part sends on a fixture line (section 12.2). A SET and a POLL frame keep the slot they serve. -/
inductive LineFrame where
  | set (slot : SlotNo) (address : Nat) (pan tilt : Nat) (levels : List Nat)
  | poll (slot : SlotNo) (address : Nat)
  | drop (address : Nat)
  | call
  | assign (uniqueId : BitVec 40) (address : Nat)
  deriving DecidableEq, Repr

/-- Where an exchange stands: its frame going out, its reply window open (R139), or its arbitration window open (R41). -/
inductive ExchangePhase where
  | frame | window | arbitration
  deriving DecidableEq, Repr

/-- The exchange in flight on a line: its frame, the rate of the exchange (R138), where it stands, and the time, in
microseconds, at which that ends of itself (the last character, the expiry, or the end of the arbitration window). -/
structure Exchange where
  frame : LineFrame
  rate  : Rate
  phase : ExchangePhase
  ends  : Nat
  deriving DecidableEq, Repr

/-- A line condition set (R135): which of the four conditions are present. -/
structure LineConditionSet where
  enrolFailed  : Bool
  tableFull    : Bool
  duplicateId  : Bool
  wrongAddress : Bool
  deriving DecidableEq, Repr

/-- The line record of a line (R135), with its exchange in flight (section 10.3), the rate of the exchange that ended
last, and the time, in microseconds, at which the line has rested if no character arrives before it (R141). The poll
times stand with the slots they belong to (`Fixture.pollTime`). -/
structure LineRec where
  enabled        : Bool
  requested      : Rate
  effective      : Rate
  replyWindow    : Nat
  refreshPeriod  : Nat
  joinPeriod     : Nat
  seq            : SeqState
  disablePending : Bool
  joinSuspended  : Bool
  conditions     : LineConditionSet
  enrol          : EnrolRecord
  lastCall       : Option Stamp
  exchange       : Option Exchange
  restRate       : Rate
  restedAt       : Nat
  deriving DecidableEq, Repr

/-! ## The control links (Control Links) -/

/-- The states of a link (section 1.6). -/
inductive LinkState where
  | idle | live | silent
  deriving DecidableEq, Repr

/-- A good frame as the part keeps it: its length and its check follow from the rest (R2). -/
structure Frame where
  tag     : Byte
  kind    : Byte
  payload : List Byte
  deriving DecidableEq, Repr

/-- The frame assembler of a link: the bytes stored so far, up to 256, how many characters were counted, and whether
one had a bad stop bit (R1). -/
structure Assembler where
  stored  : List Byte
  counted : Nat
  broken  : Bool
  deriving DecidableEq, Repr

/-- The answer statuses, in the order of their codes (section 12.1). -/
inductive Status where
  | ok | clamped | busy | notPermitted | badSlot | badRequest | poolFull | queueFull | noClaim | tableFull | lineOff
  | safetyHold
  deriving DecidableEq, Repr

/-- The three answer flags (R7). -/
structure AnswerFlags where
  requestOverrun : Bool
  noticeOverflow : Bool
  safetyActive   : Bool
  deriving DecidableEq, Repr

/-- What READ_SLOT adds for one group (R34). -/
structure GroupView where
  ownerLink : Option Link
  present   : Value
  fading    : Bool
  deriving DecidableEq, Repr

/-- What READ_CLAIMS gives for one claim (R74): the claim as it stands, its standing, and its running step's phase. -/
structure ClaimView where
  claim    : Claim
  standing : Standing
  phase    : Option Phase
  deriving DecidableEq, Repr

/-- The data of an answer (R6), by the rules that own the queries and SET_TYPE. -/
inductive AnswerData where
  /-- no data -/
  | none
  /-- SET_TYPE: the number of the entry written (R29) -/
  | entry (number : Nat)
  /-- KEEP (R17) -/
  | keep (link : Link) (silenceLimit lossFade waiting : Nat)
  /-- READ_PART (R18) -/
  | part (showClock : Reading) (safety : SafetyState) (pair : Pair) (freeClaims freeSteps : Nat)
  /-- READ_SLOT (R34) -/
  | slot (number : SlotNo) (record : Slot) (views : PerGroup GroupView)
  /-- READ_CLAIMS (R74) -/
  | claims (group : Group) (views : List ClaimView) (fade : Option Crossfade)
  /-- READ_LINE (R149) -/
  | line (record : LineRec) (onlineCount missingCount : Nat)
  /-- READ_TYPE (R31) -/
  | type (inUse : Bool) (code : BitVec 16) (matrix : Matrix) (users : Nat)
  deriving DecidableEq, Repr

/-- An answer (R6). -/
structure Answer where
  tag    : Byte
  kind   : Byte
  status : Status
  flags  : AnswerFlags
  data   : AnswerData
  deriving DecidableEq, Repr

/-- The cause a CLAIM_RESTORED notice carries (R72). -/
inductive RestoreCause where
  | release | silence | pair
  deriving DecidableEq, Repr

/-- The notices (section 1.7), in the order of their codes (section 12.1), with the fields their rules give. -/
inductive Notice where
  /-- R101 -/
  | queueLow (slot : SlotNo) (group : Group) (count : Nat)
  /-- R71 -/
  | claimDisplaced (group : Group) (taker : Link) (first : Nat) (count : Nat)
  /-- R72 -/
  | claimRestored (cause : RestoreCause) (groups : PerGroup Bool) (first : Nat) (count : Nat)
  /-- R53 -/
  | fixtureJoined (slot : SlotNo) (line : LineNo) (address : Nat) (typeCode : BitVec 16) (returned : Bool)
  /-- R50 -/
  | fixtureGone (slot : SlotNo) (line : LineNo) (address : Nat) (cause : GoneCause)
  /-- R151 -/
  | fixtureCondition (slot : SlotNo) (flag : FixtureCondition) (entered : Bool)
  /-- R152 -/
  | lineCondition (line : LineNo) (condition : LineCondition) (entered : Bool)
  /-- R39 -/
  | enrolDone (line : LineNo) (bound : Nat) (outcome : EnrolOutcome)
  /-- R86 -/
  | pairChanged (cause : PairCause) (active : Link) (override askPending : Bool) (fade : Nat)
  /-- R82 -/
  | handoverAsked (link : Link)
  /-- R83 -/
  | handoverDeclined (link : Link)
  /-- R155, R156 -/
  | safetyChanged (state : SafetyState) (cause : SafetyCause) (fade : Nat)
  deriving DecidableEq, Repr

/-- The frame a transmitter is sending (R10): whether it is the answer of the answer buffer or a notice, its bytes, and
the time, in microseconds, at which its last byte has been sent. -/
structure Sending where
  isAnswer : Bool
  bytes    : List Byte
  ends     : Nat
  deriving DecidableEq, Repr

/-- What the Link Interface holds for one link (sections 1.1 to 1.6). `lossFade` is 0 and never written on CL0 and CL1,
which hold none (R12, R17). `txReady` is the time, in microseconds, from which the transmitter may begin its next
frame (R10). -/
structure LinkRec where
  state          : LinkState
  silenceLimit   : Nat
  lossFade       : Nat
  lastGood       : Reading
  assembler      : Assembler
  requests       : List Frame
  inHand         : Option Frame
  answer         : Option Answer
  notices        : List Notice
  requestOverrun : Bool
  noticeOverflow : Bool
  sending        : Option Sending
  txReady        : Nat
  deriving DecidableEq, Repr

/-! ## Stops -/

/-- The reasons a command could stop the part with a fault. There is none: every command of the table has an effect in
every state, and what a controller or a fixture does wrong is answered, discarded or counted by the rules. -/
inductive Fault where
  deriving DecidableEq, Repr

/-- The reasons the model could refuse a command. -/
inductive Refusal where
  /-- Raised by an arm of `exec` alone, for a command that has no meaning yet; safe. No arm raises it. -/
  | notModelled (mnemonic : String)
  deriving DecidableEq, Repr

/-! ## The state of the part -/

/-- The whole state. `micros`, `clockBase`, `stampCount` and `pending` are the model's own: the time since the supply
rose and the time at which the part last left reset, both in microseconds, from which the show clock is read (R106,
R161); how many taken stamps have been set (R57); and the commands that wait, first in, first out. -/
structure State where
  micros          : Nat
  clockBase       : Nat
  supplyInRange   : Bool
  resetNHigh      : Bool
  resetNChangedAt : Nat
  inReset         : Bool
  safeNHigh       : Bool
  safeNChangedAt  : Nat
  safeAsserted    : Bool
  safety          : SafetyState
  links           : Vector LinkRec 4
  pair            : Pair
  slots           : Vector Slot 192
  types           : Vector (Option TypeEntry) 16
  claims          : List Claim
  stampCount      : Nat
  expiryList      : List ExpiryEntry
  lines           : Vector LineRec 6
  pending         : List Instr
  deriving DecidableEq, Repr

/-! ## Power-on reset -/

/-- R24, R26, R54: a FREE slot, parked centred, white and dark, with no flag set and no crossfade record. -/
def Slot.reset : Slot where
  fixture := none
  parked := { aim := [32768, 32768], colour := [65535, 65535, 65535], level := [0] }
  fades := { aim := none, colour := none, level := none }
  flags := { changed := false, urgent := false, lagging := false, gamut := false }

/-- Section 1.6 of Control Links: a link after power-on reset; the loss fade is that of CL2 and CL3, or 0. -/
def LinkRec.reset (lossFade : Nat) : LinkRec where
  state := .idle
  silenceLimit := 500
  lossFade := lossFade
  lastGood := 0
  assembler := { stored := [], counted := 0, broken := false }
  requests := []
  inHand := none
  answer := none
  notices := []
  requestOverrun := false
  noticeOverflow := false
  sending := none
  txReady := 0

/-- R37, R135: a line after power-on reset, at the start of a FULL enrolment. -/
def LineRec.reset : LineRec where
  enabled := true
  requested := .r1000
  effective := .r1000
  replyWindow := 300
  refreshPeriod := 1000
  joinPeriod := 2000
  seq := .enrolling
  disablePending := false
  joinSuspended := false
  conditions := { enrolFailed := false, tableFull := false, duplicateId := false, wrongAddress := false }
  enrol := { operation := .full, subState := some .dropping, captured := none, offered := none, attempt := none,
             bound := 0, giveUp := none }
  lastCall := none
  exchange := none
  restRate := .r250
  restedAt := 0

/-- The part at the moment it leaves power-on reset, 1 ms after the rise of the supply, with RESET_N high and SAFE_N
high (R161; log entries 1 and 2): every block in the state its own chapter gives. -/
def State.reset : State where
  micros := 1000
  clockBase := 1000
  supplyInRange := true
  resetNHigh := true
  resetNChangedAt := 0
  inReset := false
  safeNHigh := true
  safeNChangedAt := 1000
  safeAsserted := false
  safety := .clear
  links := #v[LinkRec.reset 0, LinkRec.reset 0, LinkRec.reset 2000, LinkRec.reset 2000]
  pair := { active := .a, override := false, askPending := false, failoverFade := 2000 }
  slots := Vector.replicate 192 Slot.reset
  types := Vector.replicate 16 none
  claims := []
  stampCount := 0
  expiryList := []
  lines := Vector.replicate 6 LineRec.reset
  pending := []

end Sys2Proof.Machine
end

