-- ==== Sys2Proof/Machine/Ops.lean ====
section
/-! DEFINITION. Machine/Ops.lean: the named operations over the state that every block uses: the show clock and
elapsed times (R106), reading and writing one link, slot, line or type entry, raising a notice (R8, R9), and placing an
answer (R6, R7). -/

namespace Sys2Proof

/-- The number of a link. -/
def Link.index : Link → Fin 4
  | .cl0 => 0
  | .cl1 => 1
  | .cl2 => 2
  | .cl3 => 3

/-- The tier of a link (section 1.2 of the introduction). -/
def Link.tier : Link → Nat
  | .cl0 => 2
  | .cl1 => 2
  | .cl2 => 1
  | .cl3 => 3

/-- How many components a group has (R55). -/
def Group.width : Group → Nat
  | .aim => 2
  | .colour => 3
  | .level => 1

end Sys2Proof

namespace Sys2Proof.Machine

/-! ## The show clock -/

/-- R106: the show clock counts milliseconds from the moment the part left reset and wraps at 2^32. -/
def State.now (s : State) : Reading := BitVec.ofNat 32 ((s.micros - s.clockBase) / 1000)

/-- R106: the elapsed time from a stamp to a later reading, taken modulo 2^32. -/
def elapsed (stamp reading : Reading) : Nat := (reading - stamp).toNat

/-- R106: the elapsed time from a stamp that can become old. From an old stamp it is 2^32, which no elapsed time
reaches: greater than any duration or period, and the same for all old stamps. -/
def Stamp.age (stamp : Stamp) (reading : Reading) : Nat :=
  if stamp.old then 4294967296 else elapsed stamp.reading reading

/-- R25, R47, R51: an absent stamp counts as longer ago than any stamp. -/
def ageOrNever (stamp : Option Stamp) (reading : Reading) : Nat :=
  match stamp with
  | none => 4294967297
  | some a => a.age reading

/-- A stamp set at the present reading. -/
def State.stampNow (s : State) : Stamp := { reading := s.now, old := false }

/-- The part leaves reset alone in reset: every other effect needs the part to run (R161). -/
def State.whenRunning (s : State) (effect : State → State) : State := if s.inReset then s else effect s

/-! ## Links -/

/-- The links in the order of their numbers. -/
def allLinks : List Link := [.cl0, .cl1, .cl2, .cl3]

/-- The link of a console of the pair (R76). -/
def Console.link : Console → Link
  | .a => .cl0
  | .b => .cl1

/-- The other console of the pair. -/
def Console.other : Console → Console
  | .a => .b
  | .b => .a

/-- The link that holds the ACTIVE role (R76). -/
def Pair.activeLink (p : Pair) : Link := p.active.link

/-- The link that holds the STANDBY role (R76). -/
def Pair.standbyLink (p : Pair) : Link := p.active.other.link

/-- What the Link Interface holds for a link. -/
def State.link (s : State) (l : Link) : LinkRec := s.links[(l.index : Nat)]

/-- Write what the Link Interface holds for a link. -/
def State.setLink (s : State) (l : Link) (r : LinkRec) : State := { s with links := s.links.set (l.index) r }

/-! ## Slots, type entries and lines -/

/-- What the part holds under a slot number. -/
def State.slot (s : State) (n : SlotNo) : Slot := s.slots[(n : Nat)]

/-- Write what the part holds under a slot number. -/
def State.setSlot (s : State) (n : SlotNo) (x : Slot) : State := { s with slots := s.slots.set n x }

/-- The slot numbers, lowest first. -/
def allSlots : List SlotNo := List.finRange 192

/-- The groups, in the order AIM, COLOUR, LEVEL. -/
def allGroups : List Group := [.aim, .colour, .level]

/-- The item of one group. -/
def PerGroup.get {α : Type} (x : PerGroup α) : Group → α
  | .aim => x.aim
  | .colour => x.colour
  | .level => x.level

/-- Write the item of one group. -/
def PerGroup.set {α : Type} (x : PerGroup α) (g : Group) (v : α) : PerGroup α :=
  match g with
  | .aim => { x with aim := v }
  | .colour => { x with colour := v }
  | .level => { x with level := v }

/-- One item made for each group. -/
def PerGroup.make {α : Type} (f : Group → α) : PerGroup α :=
  { aim := f .aim, colour := f .colour, level := f .level }

/-- The state of a slot (R20): FREE when it holds no fixture. -/
def Slot.state (x : Slot) : SlotState :=
  match x.fixture with
  | none => .free
  | some f => if f.online then .online else .missing

/-- Change the fixture of a bound slot; a FREE slot is left as it is. -/
def State.mapFixture (s : State) (n : SlotNo) (change : Fixture → Fixture) : State :=
  s.setSlot n { s.slot n with fixture := (s.slot n).fixture.map change }

/-- An entry of the Type Table; none while it is unused (R27). -/
def State.typeEntry (s : State) (k : Fin 16) : Option TypeEntry := s.types[(k : Nat)]

/-- Write an entry of the Type Table. -/
def State.setTypeEntry (s : State) (k : Fin 16) (e : TypeEntry) : State := { s with types := s.types.set k (some e) }

/-- The entry numbers, lowest first. -/
def allEntries : List (Fin 16) := List.finRange 16

/-- The line record of a line. -/
def State.line (s : State) (n : LineNo) : LineRec := s.lines[(n : Nat)]

/-- Write the line record of a line. -/
def State.setLine (s : State) (n : LineNo) (r : LineRec) : State := { s with lines := s.lines.set n r }

/-! ## Notices -/

/-- R8, R9: a link's own copy of a notice: none unless the link is LIVE; at the tail of a queue of fewer than 16;
discarded, with NOTICE_OVERFLOW set, when the queue holds 16. -/
def LinkRec.receive (r : LinkRec) (n : Notice) : LinkRec :=
  if r.state = .live then
    if r.notices.length < Config.noticeQueueSize then { r with notices := r.notices ++ [n] }
    else { r with noticeOverflow := true }
  else r

/-- R8: raise a notice to one link. -/
def State.raiseTo (s : State) (l : Link) (n : Notice) : State := s.setLink l ((s.link l).receive n)

/-- R8: raise a notice to several links. -/
def State.raiseEach (s : State) (links : List Link) (n : Notice) : State := links.foldl (fun s l => s.raiseTo l n) s

/-- R8: raise a notice to all links. -/
def State.raiseAll (s : State) (n : Notice) : State := s.raiseEach allLinks n

/-! ## Answers -/

/-- R7: the flags an answer placed now on a link carries. -/
def State.answerFlags (s : State) (l : Link) : AnswerFlags :=
  { requestOverrun := (s.link l).requestOverrun
    noticeOverflow := (s.link l).noticeOverflow
    safetyActive := decide (s.safety ≠ .clear) }

/-- R4, R6, R7: the answer to the request in hand is placed in the link's answer buffer; the request is no longer in
hand, and the link's REQUEST_OVERRUN flag clears. The answer's kind is the request's with bit 7 set (section 12.1). -/
def State.answer (s : State) (l : Link) (request : Frame) (status : Status) (data : AnswerData) : State :=
  s.setLink l
    { s.link l with
      inHand := none
      answer := some { tag := request.tag, kind := request.kind ||| 0x80#8, status := status,
                       flags := s.answerFlags l, data := data }
      requestOverrun := false }

/-- R6: a refused request is answered with the status of the check that refused it and carries no data. -/
def State.refuse (s : State) (l : Link) (request : Frame) (status : Status) : State := s.answer l request status .none

/-- R6: a request taken is answered CLAMPED when its owner brought a field into range, and OK otherwise. -/
def takenStatus (clamped : Bool) : Status := if clamped then .clamped else .ok

/-! ## Times out of range -/

/-- R117: a duration, dwell or fade above 600,000 ms is lowered to 600,000. -/
def clampTime (ms : Nat) : Nat := min ms Config.longestTime

/-- R6, R117: whether `clampTime` changes the value. -/
def outOfRange (ms : Nat) : Bool := decide (Config.longestTime < ms)

/-- R12, R136: a value brought into a range. -/
def clampBetween (low high v : Nat) : Nat := max low (min high v)

end Sys2Proof.Machine
end

