-- ==== Sys2Proof/Machine/Flags.lean ====
section
/-! DEFINITION. Machine/Flags.lean: the slot flags (R26), the fixture condition sets and the notices of their changes
(R151), and the line condition sets and the notices of theirs (R152). -/

namespace Sys2Proof.Machine

/-! ## Slot flags -/

/-- R26: set CHANGED on a slot, whatever its state. -/
def State.setChanged (s : State) (n : SlotNo) : State :=
  s.setSlot n { s.slot n with flags := { (s.slot n).flags with changed := true } }

/-- R26: set URGENT on a slot. -/
def State.setUrgent (s : State) (n : SlotNo) : State :=
  s.setSlot n { s.slot n with flags := { (s.slot n).flags with urgent := true } }

/-- The bound slots, ONLINE or MISSING, lowest number first. -/
def State.boundSlots (s : State) : List SlotNo := allSlots.filter (fun n => (s.slot n).fixture.isSome)

/-- R155, R156: set URGENT on every bound slot. -/
def State.setUrgentOnBound (s : State) : State := s.boundSlots.foldl State.setUrgent s

/-- No flag set (R26, at power-on reset and at FORGET). -/
def SlotFlags.allClear : SlotFlags := { changed := false, urgent := false, lagging := false, gamut := false }

/-! ## Fixture conditions -/

/-- The flags in the order in which R151 compares them. -/
def allConditions : List FixtureCondition :=
  [.motorStall, .overTemperature, .emitterFault, .positionLost, .fanFault]

/-- Whether a flag is in a condition set. -/
def ConditionSet.has (c : ConditionSet) : FixtureCondition → Bool
  | .motorStall => c.motorStall
  | .overTemperature => c.overTemperature
  | .emitterFault => c.emitterFault
  | .positionLost => c.positionLost
  | .fanFault => c.fanFault

/-- The empty set, which a FREE slot holds (R19). -/
def ConditionSet.empty : ConditionSet :=
  { motorStall := false, overTemperature := false, emitterFault := false, positionLost := false, fanFault := false }

/-- R159, R160: the condition set a byte carries; bits 5 to 7 are ignored. -/
def ConditionSet.ofByte (b : Byte) : ConditionSet :=
  { motorStall := b.getLsbD 0, overTemperature := b.getLsbD 1, emitterFault := b.getLsbD 2,
    positionLost := b.getLsbD 3, fanFault := b.getLsbD 4 }

/-- R151: the notices of the change from the stored set to the reported one, one for each flag that entered or left. -/
def conditionNotices (n : SlotNo) (stored reported : ConditionSet) : List Notice :=
  allConditions.filterMap fun c =>
    if stored.has c = reported.has c then none else some (.fixtureCondition n c (reported.has c))

/-- R151: the Condition Monitor raises the notices of a change, to all links. -/
def State.raiseConditions (s : State) (n : SlotNo) (stored reported : ConditionSet) : State :=
  (conditionNotices n stored reported).foldl State.raiseAll s

/-! ## Line conditions -/

/-- Whether a condition is in a line condition set. -/
def LineConditionSet.has (c : LineConditionSet) : LineCondition → Bool
  | .enrolFailed => c.enrolFailed
  | .tableFull => c.tableFull
  | .duplicateId => c.duplicateId
  | .wrongAddress => c.wrongAddress

/-- A line condition set with one condition made present or absent. -/
def LineConditionSet.put (c : LineConditionSet) (k : LineCondition) (present : Bool) : LineConditionSet :=
  match k with
  | .enrolFailed => { c with enrolFailed := present }
  | .tableFull => { c with tableFull := present }
  | .duplicateId => { c with duplicateId := present }
  | .wrongAddress => { c with wrongAddress := present }

/-- R152: a condition that enters a set it is absent from, or leaves a set it is present in, raises one LINE_CONDITION
to all links; otherwise nothing is raised. -/
def State.putCondition (s : State) (ln : LineNo) (k : LineCondition) (present : Bool) : State :=
  if (s.line ln).conditions.has k = present then s
  else
    (s.setLine ln { s.line ln with conditions := (s.line ln).conditions.put k present }).raiseAll
      (.lineCondition ln k present)

end Sys2Proof.Machine
end

