-- ==== Sys2Proof/Machine/Profile.lean ====
section
/-! DEFINITION. Machine/Profile.lean: the Profile Unit's arithmetic (Profile Arithmetic): fractions, curves,
interpolation, the value of a step, and the crossfade value. -/

namespace Sys2Proof.Machine

/-- R110, R114: the fraction of a move of duration `d` at elapsed time `e`. -/
def fraction (e d : Nat) : Nat := e * 65536 / d

/-- R111: the shaped fraction. SNAP and SNAP_END use none (R109); they are given that of LINEAR, which nothing reads. -/
def shape (c : Curve) (f : Nat) : Nat :=
  match c with
  | .linear => f
  | .easeIn => f * f / 65536
  | .easeOut => 65536 - ((65536 - f) * (65536 - f) + 65535) / 65536
  | .easeInOut => f * f * (196608 - 2 * f) / 4294967296
  | .snap => f
  | .snapEnd => f

/-- R112: the value of one component: the floor is toward minus infinity, for a negative quotient as for a positive. -/
def interpolate (start target g : Nat) : Nat :=
  ((start : Int) + (((target : Int) - (start : Int)) * (g : Int) + 32768) / 65536).toNat

/-- R113: every component takes the same fraction and is rounded on its own. -/
def interpolateAll (start target : Value) (g : Nat) : Value :=
  List.zipWith (fun a b => interpolate a b g) start target

/-- R108, R109: the value of a running step at a reading. -/
def RunningStep.value (r : RunningStep) (t : Reading) : Value :=
  if r.step.duration = 0 ∨ r.step.duration ≤ elapsed r.startTime t then r.step.target
  else
    match r.adjusted with
    | .snap => r.step.target
    | .snapEnd => r.startValue
    | c => interpolateAll r.startValue r.step.target (shape c (fraction (elapsed r.startTime t) r.step.duration))

/-- R91: a running step is MOVING while the time since its start is less than its duration, and DWELLING after. -/
def RunningStep.phase (r : RunningStep) (t : Reading) : Phase :=
  if elapsed r.startTime t < r.step.duration then .moving else .dwelling

/-- R91, R107: a claim's own value: that of its running step, or its rest value. -/
def Claim.ownValue (c : Claim) (t : Reading) : Value :=
  match c.running with
  | none => c.rest
  | some r => r.value t

/-- R69, R114: a crossfade record is spent when the time since its start is at least its duration. -/
def Crossfade.spent (x : Crossfade) (t : Reading) : Bool := decide (x.duration ≤ x.start.age t)

/-- R114: the value of an unspent crossfade record toward the value beneath it. -/
def Crossfade.value (x : Crossfade) (beneath : Value) (t : Reading) : Value :=
  interpolateAll x.fromValue beneath (fraction (x.start.age t) x.duration)

/-- R100: the adjusted curve of a step, by up to two drops. -/
def Curve.adjust (c : Curve) (dropIn dropOut : Bool) : Curve :=
  match c, dropIn, dropOut with
  | .easeIn, true, _ => .linear
  | .easeOut, _, true => .linear
  | .easeInOut, true, true => .linear
  | .easeInOut, true, false => .easeOut
  | .easeInOut, false, true => .easeIn
  | c, _, _ => c

end Sys2Proof.Machine
end

