-- ==== Sys2Proof/Machine/Claims.lean ====
section
/-! DEFINITION. Machine/Claims.lean: the claim pool and the claim stacks (R55 to R60), present values and evaluations
(R59, R107, R114, R115), takings (R61), removals (R66), passive changes (R67) and the notices of displacement and
restoration (R71, R72). -/

namespace Sys2Proof.Machine

/-! ## The pool -/

/-- The lowest number, from `k` on, that is not in `used`; looking no more than `fuel` numbers past `k`. -/
def firstFree (used : List Nat) : Nat → Nat → Nat
  | 0, k => k
  | fuel + 1, k => if k ∈ used then firstFree used fuel (k + 1) else k

/-- The claim with a claim number. -/
def State.claim (s : State) (k : Nat) : Option Claim := s.claims.find? (fun c => decide (c.number = k))

/-- R56: the claim a link holds on a slot group. -/
def State.claimOf (s : State) (l : Link) (n : SlotNo) (g : Group) : Option Claim :=
  s.claims.find? (fun c => decide (c.link = l) && decide (c.slot = n) && decide (c.group = g))

/-- Change the claim with a claim number. -/
def State.mapClaim (s : State) (k : Nat) (change : Claim → Claim) : State :=
  { s with claims := s.claims.map (fun c => if c.number = k then change c else c) }

/-- The pool is listed by claim number, lowest first. -/
def insertByNumber (c : Claim) : List Claim → List Claim
  | [] => [c]
  | d :: rest => if d.number < c.number then d :: insertByNumber c rest else c :: d :: rest

/-- R18, R56: the free records of the claim pool. -/
def State.freeClaims (s : State) : Nat := Config.claimRecords - s.claims.length

/-! ## The stacks -/

/-- R57: whether claim `a` stands before claim `b` in a stack. -/
def Claim.before (a b : Claim) : Bool :=
  decide (a.link.tier < b.link.tier) ||
    (decide (a.link.tier = b.link.tier) &&
      ((decide (a.role = .live) && decide (b.role = .shadow)) ||
        (decide (a.role = .live) && decide (b.role = .live) && decide (b.takenOrder < a.takenOrder))))

/-- Put a claim into an ordered stack: behind every claim that stands before it. -/
def insertInStack (c : Claim) : List Claim → List Claim
  | [] => [c]
  | d :: rest => if c.before d then c :: d :: rest else d :: insertInStack c rest

/-- R57: the claim stack of a slot group, in its order. -/
def State.stack (s : State) (n : SlotNo) (g : Group) : List Claim :=
  (s.claims.filter (fun c => decide (c.slot = n) && decide (c.group = g))).foldr insertInStack []

/-- R58: the owner of a stack is its first LIVE claim. A SHADOW claim of tier 2 may stand before an owner of tier 3. -/
def State.owner (s : State) (n : SlotNo) (g : Group) : Option Claim :=
  (s.stack n g).find? (fun c => decide (c.role = .live))

/-- The claim number of the owner of a stack. -/
def State.ownerNumber (s : State) (n : SlotNo) (g : Group) : Option Nat := (s.owner n g).map (·.number)

/-- R58, R74: how a claim stands in its stack. -/
def State.standing (s : State) (c : Claim) : Standing :=
  if c.role = .shadow then .shadow else if s.ownerNumber c.slot c.group = some c.number then .owner else .held

/-- R74: the stack as READ_CLAIMS gives it: the owner first when there is one, the other claims in the order of R57. The
two orders part only where a SHADOW claim stands before the owner, and there R74's own words are followed (log entry
20). -/
def State.reportedStack (s : State) (n : SlotNo) (g : Group) : List Claim :=
  match s.owner n g with
  | none => s.stack n g
  | some c => c :: (s.stack n g).erase c

/-- R60: the role a link's claim takes from the pair record. -/
def Pair.roleFor (p : Pair) (l : Link) : Role :=
  if l = p.standbyLink ∧ p.override = false then .shadow else .live

/-! ## Present values -/

/-- The crossfade record of a slot group. -/
def State.fade (s : State) (n : SlotNo) (g : Group) : Option Crossfade := (s.slot n).fades.get g

/-- Write the crossfade record of a slot group. -/
def State.setFade (s : State) (n : SlotNo) (g : Group) (x : Option Crossfade) : State :=
  s.setSlot n { s.slot n with fades := (s.slot n).fades.set g x }

/-- Write the parked value of a slot group. -/
def State.setParked (s : State) (n : SlotNo) (g : Group) (v : Value) : State :=
  s.setSlot n { s.slot n with parked := (s.slot n).parked.set g v }

/-- R59: the value beneath any crossfade record: the owner's own value, or the parked value. -/
def State.beneath (s : State) (n : SlotNo) (g : Group) : Value :=
  match s.owner n g with
  | some c => c.ownValue s.now
  | none => (s.slot n).parked.get g

/-- R114: the crossfade record that is running on a group: one whose duration has passed counts as absent. -/
def State.runningFade (s : State) (n : SlotNo) (g : Group) : Option Crossfade :=
  match s.fade n g with
  | none => none
  | some x => if x.spent s.now then none else some x

/-- R115: the present value of a group. -/
def State.present (s : State) (n : SlotNo) (g : Group) : Value :=
  match s.runningFade n g with
  | some x => x.value (s.beneath n g) s.now
  | none => s.beneath n g

/-- R69, R107, R114: an evaluation of a group removes a spent crossfade record, and changes nothing else. -/
def State.evaluated (s : State) (n : SlotNo) (g : Group) : State := s.setFade n g (s.runningFade n g)

/-! ## Creating a claim, and setting a taken stamp -/

/-- R55, R56, R62: a link's new claim on a slot group, resting at a value, in the lowest free record. -/
def State.createClaim (s : State) (l : Link) (n : SlotNo) (g : Group) (rest : Value) : State :=
  let c : Claim :=
    { number := firstFree (s.claims.map (·.number)) s.claims.length 0
      slot := n, group := g, link := l, role := s.pair.roleFor l, mode := .oneShot, rest := rest, running := none
      queue := [], lowMark := 0, armed := true, taken := s.now, takenOrder := s.stampCount }
  { s with claims := insertByNumber c s.claims, stampCount := s.stampCount + 1 }

/-- R57, R62, R63: a claim's taken stamp becomes the present reading, the latest of all stamps set. -/
def State.stampTaken (s : State) (k : Nat) : State :=
  { s.mapClaim k (fun c => { c with taken := s.now, takenOrder := s.stampCount }) with stampCount := s.stampCount + 1 }

/-- R62, R90: a claim's running step and pending steps return to the step pool, and its expiry entry is removed. -/
def State.returnSteps (s : State) (k : Nat) : State :=
  { s.mapClaim k (fun c => { c with running := none, queue := [] }) with
    expiryList := s.expiryList.filter (fun e => decide (e.claim ≠ k)) }

/-! ## Displacement and restoration (section 4.8) -/

/-- The lowest slot number of a list that is not empty. -/
def lowestSlot (slots : List SlotNo) : Nat := slots.foldl (fun m n => min m n.val) 191

/-- R71: one CLAIM_DISPLACED to each link that lost ownership of at least one group to the request. -/
def State.raiseDisplaced (s : State) (taker : Link) (g : Group) (lost : List (Link × SlotNo)) : State :=
  allLinks.foldl
    (fun s l =>
      let slots := (lost.filter (fun x => decide (x.1 = l))).map (·.2)
      if slots.isEmpty then s else s.raiseTo l (.claimDisplaced g taker (lowestSlot slots) slots.length))
    s

/-- A group that a link gained by a passive change. -/
structure Gain where
  link  : Link
  slot  : SlotNo
  group : Group
  deriving DecidableEq, Repr

/-- R72: one CLAIM_RESTORED to each link whose claims became owner of their groups by the event. -/
def State.raiseRestored (s : State) (cause : RestoreCause) (gains : List Gain) : State :=
  allLinks.foldl
    (fun s l =>
      let mine := gains.filter (fun x => decide (x.link = l))
      if mine.isEmpty then s
      else
        s.raiseTo l
          (.claimRestored cause (PerGroup.make fun g => mine.any (fun x => decide (x.group = g)))
            (lowestSlot (mine.map (·.slot))) mine.length))
    s

/-! ## Takings, removals and passive changes -/

/-- R61, R62: what becomes of a group when claim `k` has been rebased or created by its own link and stands where R57
puts it: the state, and the link that lost the group, if one did. `before` is the owner before the event. A taking ends
the crossfade record and sets CHANGED; an owner that stays owner ends the record alone when `seize` is set. -/
def State.settleOwner (s : State) (n : SlotNo) (g : Group) (k : Nat) (before : Option Claim) (seize : Bool) :
    State × List (Link × SlotNo) :=
  if s.ownerNumber n g = some k then
    if before.map (·.number) = some k then (if seize then s.setFade n g none else s, [])
    else ((s.setFade n g none).setChanged n, (before.map (fun c => (c.link, n))).toList)
  else (s, [])

/-- R62: one slot of a SEIZE: the link's claim is created at the group's present value, or rebased to it. -/
def State.seizeSlot (s : State) (l : Link) (g : Group) (n : SlotNo) : State × List (Link × SlotNo) :=
  let before := s.owner n g
  let value := s.present n g
  let s1 := s.evaluated n g
  let s2 :=
    match s.claimOf l n g with
    | none => s1.createClaim l n g value
    | some c => ((s1.returnSteps c.number).mapClaim c.number (fun c => { c with rest := value })).stampTaken c.number
  match s2.claimOf l n g with
  | none => (s2, [])
  | some c => s2.settleOwner n g c.number before true

/-- R67: the crossfade record of a passive change: from the group's present value, now, over the fade. -/
def State.passiveRecord (s : State) (n : SlotNo) (g : Group) (fade : Nat) : Crossfade :=
  { fromValue := s.present n g, start := s.stampNow, duration := fade }

/-- R66, R90: a claim leaves its stack and its pool; its steps return and its expiry entry is removed. -/
def State.dropClaim (s : State) (k : Nat) : State :=
  { s with
    claims := s.claims.filter (fun c => decide (c.number ≠ k))
    expiryList := s.expiryList.filter (fun e => decide (e.claim ≠ k)) }

/-- R66: the removal of a claim with a fade, and the group a link gained by it, if one did. -/
def State.removeClaim (s : State) (c : Claim) (fade : Nat) : State × List Gain :=
  let wasOwner := decide (s.ownerNumber c.slot c.group = some c.number)
  let rest := s.dropClaim c.number
  if (rest.stack c.slot c.group).isEmpty then
    let parked := (rest.setParked c.slot c.group (s.present c.slot c.group)).setFade c.slot c.group none
    (if wasOwner then parked.setChanged c.slot else parked, [])
  else if wasOwner then
    ((rest.setFade c.slot c.group (some (s.passiveRecord c.slot c.group fade))).setChanged c.slot,
      ((rest.owner c.slot c.group).map (fun d => ({ link := d.link, slot := c.slot, group := c.group } : Gain))).toList)
  else (rest, [])

/-- R65, R13: the removal of several claims by one event, and the groups gained by it. -/
def State.removeClaims (s : State) (claims : List Claim) (fade : Nat) : State × List Gain :=
  claims.foldl
    (fun acc c =>
      let next := acc.1.removeClaim c fade
      (next.1, acc.2 ++ next.2))
    (s, [])

/-- R65: the release of claims by a RELEASE or by the silence of a link, with its notices. -/
def State.releaseClaims (s : State) (claims : List Claim) (fade : Nat) (cause : RestoreCause) : State :=
  let done := s.removeClaims claims fade
  done.1.raiseRestored cause done.2

/-- R75, R35: every group of every slot is parked at its present value, every crossfade record ends, and CHANGED is set
on every bound slot. -/
def State.parkSlot (s : State) (n : SlotNo) : State :=
  s.setSlot n
    { s.slot n with
      parked := PerGroup.make fun g => s.present n g
      fades := { aim := none, colour := none, level := none }
      flags := { (s.slot n).flags with changed := (s.slot n).flags.changed || (s.slot n).fixture.isSome } }

/-- R75: the clean slate. The groups are parked one slot after another: a slot's present values depend on that slot
alone. -/
def State.clearRig (s : State) : State := { allSlots.foldl State.parkSlot s with claims := [], expiryList := [] }

end Sys2Proof.Machine
end

