-- ==== Sys2Proof/Machine/SafetyLayer.lean ====
section
/-! DEFINITION. Machine/SafetyLayer.lean: the Safety Layer (R153 to R156): the input filter, the safety states and the
clearing of the hold. -/

namespace Sys2Proof.Machine

/-- R153: how long the raw level of SAFE_N has stood, in microseconds. -/
def State.safeRun (s : State) : Nat := s.micros - s.safeNChangedAt

/-- R153: the show-clock reading at which the raw level of SAFE_N last changed. -/
def State.safeNReading (s : State) : Reading := BitVec.ofNat 32 ((s.safeNChangedAt - s.clockBase) / 1000)

/-- R153: the run after which the filter believes the line: 10 ms. -/
def filterMicros : Nat := 10000

/-- R155: an assertion. -/
def State.assertSafety (s : State) : State :=
  ({ s with safeAsserted := true, safety := .holding }.setUrgentOnBound).raiseAll (.safetyChanged .holding .asserted 0)

/-- R155: a release: the state, which is HOLDING, becomes LATCHED. -/
def State.releaseSafety (s : State) : State :=
  { s with safeAsserted := false, safety := .latched }.raiseAll (.safetyChanged .latched .released 0)

/-- R156: the crossfade record of a clear: from 0. -/
def State.clearRecord (s : State) (fade : Nat) : Crossfade :=
  { fromValue := [0], start := s.stampNow, duration := fade }

/-- R156: a SAFE_CLEAR taken in LATCHED. -/
def State.clearSafety (s : State) (fade : Nat) : State :=
  let cleared := { s with safety := .clear }.setUrgentOnBound
  (cleared.boundSlots.foldl (fun s n => s.setFade n .level (some (s.clearRecord fade))) cleared).raiseAll
    (.safetyChanged .clear .cleared fade)

end Sys2Proof.Machine
end

