-- ==== Sys2Proof/Machine/PowerCommands.lean ====
section
/-! DEFINITION. Machine/PowerCommands.lean: the meanings of the rows on power, reset, the safety input and old stamps:
POWER_ON_RESET, LEAVE_RESET, RESET_N_CHANGE, SAFE_N_CHANGE, SAFETY_ASSERTION, SAFETY_RELEASE, STAMP_BECOMES_OLD; and the
tick. -/

namespace Sys2Proof.Machine

/-- What a command answers. No command faults (log entry 5), and none is refused. -/
abbrev Result := Host.Outcome State Fault Refusal

/-- R161: the run of RESET_N after which a reset is entered or left: 1 ms. -/
def resetMicros : Nat := 1000

/-- How long the raw level of RESET_N has stood, in microseconds. -/
def State.resetRun (s : State) : Nat := s.micros - s.resetNChangedAt

/-- R161: in reset no transmitter sends, no line is driven, and no frame is taken. What the blocks held cannot be seen
any more; it is kept until the part leaves reset. -/
def State.enterReset (s : State) : State :=
  { s with
    inReset := true
    links := s.links.map (fun r => { r with sending := none, assembler := LinkRec.reset 0 |>.assembler })
    lines := s.lines.map (fun r => { r with exchange := none }) }

/-- R161: the part leaves reset: the show clock starts from 0, every block takes its power-on state, and the Safety Layer
takes its filtered level from SAFE_N as it stands (R153, R154). -/
def State.powerUp (s : State) : State :=
  { State.reset with
    micros := s.micros
    clockBase := s.micros
    supplyInRange := s.supplyInRange
    resetNHigh := s.resetNHigh
    resetNChangedAt := s.resetNChangedAt
    safeNHigh := s.safeNHigh
    safeNChangedAt := s.micros
    safeAsserted := !s.safeNHigh
    safety := if s.safeNHigh then .clear else .holding
    pending := s.pending }

/-- POWER_ON_RESET (R161): the rise of the supply, or RESET_N held low for 1 ms. The supply is in range from its very
rise, and no command takes it out of range (log entry 35). -/
def execPowerOnReset (cause : ResetCause) (s : State) : Result :=
  .next <|
    match cause with
    | .supplyRise => { s.enterReset with supplyInRange := true, resetNChangedAt := s.micros }
    | .resetNLow => if s.resetNHigh = false ∧ resetMicros ≤ s.resetRun then s.enterReset else s

/-- LEAVE_RESET (R161): RESET_N has been high for 1 ms with the supply in range. -/
def execLeaveReset (s : State) : Result :=
  .next <|
    if s.inReset = true ∧ s.resetNHigh = true ∧ resetMicros ≤ s.resetRun ∧ s.supplyInRange = true then s.powerUp else s

/-- RESET_N_CHANGE (R161): the raw level changes, and a new run begins. In reset too a low pulse shorter than 1 ms ends
the high run, and LEAVE_RESET waits for a new one (log entry 36). -/
def execResetNChange (high : Bool) (s : State) : Result :=
  .next <| if s.resetNHigh = high then s else { s with resetNHigh := high, resetNChangedAt := s.micros }

/-- SAFE_N_CHANGE (R153): the raw level changes, and a new run begins. -/
def execSafeNChange (high : Bool) (s : State) : Result :=
  .next <| if s.safeNHigh = high then s else { s with safeNHigh := high, safeNChangedAt := s.micros }

/-- SAFETY_ASSERTION (R153, R155): SAFE_N has been low for 10 ms while the filtered level was released. -/
def execSafetyAssertion (s : State) : Result :=
  .next <| s.whenRunning fun s =>
    if s.safeNHigh = false ∧ s.safeAsserted = false ∧ filterMicros ≤ s.safeRun then s.assertSafety else s

/-- SAFETY_RELEASE (R153, R155): SAFE_N has been high for 10 ms while the filtered level was asserted. -/
def execSafetyRelease (s : State) : Result :=
  .next <| s.whenRunning fun s =>
    if s.safeNHigh = true ∧ s.safeAsserted = true ∧ filterMicros ≤ s.safeRun then s.releaseSafety else s

/-! ## Old stamps -/

/-- R106: a stamp becomes old once 2^31 ms have passed since it was set, and stays old. -/
def Stamp.aged (a : Stamp) (t : Reading) : Stamp :=
  if 2147483648 ≤ elapsed a.reading t then { a with old := true } else a

/-- R106: the stamp named becomes old, where there is such a stamp and its time has come. -/
def State.ageStamp (s : State) (which : StampRef) : State :=
  match which with
  | .crossfade n g => s.setFade n g ((s.fade n g).map (fun x => { x with start := x.start.aged s.now }))
  | .lastSent n =>
    s.mapFixture n (fun f => { f with lastSent := f.lastSent.map (fun x => { x with time := x.time.aged s.now }) })
  | .poll n => s.mapFixture n (fun f => { f with pollTime := f.pollTime.map (fun x => x.aged s.now) })
  | .lastCall ln => s.setLine ln { s.line ln with lastCall := (s.line ln).lastCall.map (fun x => x.aged s.now) }
  | .follower n => s.mapFixture n (fun f => { f with refTime := f.refTime.aged s.now })

/-- STAMP_BECOMES_OLD (R106). -/
def execStampBecomesOld (which : StampRef) (s : State) : Result := .next <| s.whenRunning fun s => s.ageStamp which

/-! ## Time -/

/-- One microsecond passes: what a step does when no command waits (log entry 3). -/
def State.tick (s : State) : State := { s with micros := s.micros + 1 }

end Sys2Proof.Machine
end

