-- ==== Sys2Proof/Machine/Bytes.lean ====
section
/-! DEFINITION. Machine/Bytes.lean: byte order on both kinds of link (section 2.3 of the introduction), and the two check
definitions (sections 12.1 and 12.2). -/

namespace Sys2Proof.Machine

/-- A 16-bit field, most significant byte first. -/
def bytes16 (n : Nat) : List Byte := [BitVec.ofNat 8 (n / 256), BitVec.ofNat 8 n]

/-- A 32-bit field, most significant byte first. -/
def bytes32 (n : Nat) : List Byte := bytes16 (n / 65536) ++ bytes16 n

/-- A 40-bit field, most significant byte first. -/
def bytes40 (n : Nat) : List Byte := BitVec.ofNat 8 (n / 4294967296) :: bytes32 n

/-- The unsigned number that two bytes carry. -/
def number16 (high low : Byte) : Nat := high.toNat * 256 + low.toNat

/-- The signed number that two bytes carry in two's complement (R159, the coefficient row). -/
def signed16 (high low : Byte) : Int := (BitVec.ofNat 16 (number16 high low)).toInt

/-- One bit of the CRC-16 with generator x^16 + x^12 + x^5 + 1. -/
def crc16Bit (c : BitVec 16) : BitVec 16 := if c.msb then (c <<< 1) ^^^ 0x1021#16 else c <<< 1

/-- One byte of the CRC-16, most significant bit first. -/
def crc16Byte (c : BitVec 16) (b : Byte) : BitVec 16 := Nat.repeat crc16Bit 8 (c ^^^ (b.setWidth 16 <<< 8))

/-- The CRC-16 of the control links (section 12.1): the register starts at 0xFFFF and nothing is inverted. -/
def crc16 (bytes : List Byte) : BitVec 16 := bytes.foldl crc16Byte 0xFFFF#16

/-- One bit of the CRC-8 with generator x^8 + x^2 + x + 1. -/
def crc8Bit (c : Byte) : Byte := if c.msb then (c <<< 1) ^^^ 0x07#8 else c <<< 1

/-- One byte of the CRC-8, most significant bit first. -/
def crc8Byte (c : Byte) (b : Byte) : Byte := Nat.repeat crc8Bit 8 (c ^^^ b)

/-- The CRC-8 of the fixture lines (section 12.2): the register starts at 0 and nothing is inverted. -/
def crc8 (bytes : List Byte) : Byte := bytes.foldl crc8Byte 0x00#8

end Sys2Proof.Machine
end

