-- ==== Sys2Proof/Machine/Operands.lean ====
section
/-! DEFINITION. Machine/Operands.lean: the operands of the requests: what a good frame's kind byte and payload ask for
(R159, section 12.1), or nothing where the form stage of R5 fails; the slot stage of R5 over a slot set; and the
permission stage of R5 (R16, R88). -/

namespace Sys2Proof.Machine

/-- A slot set as a request carries it (section 2.5 of the introduction): a range, or a list. -/
inductive SlotSet where
  | range (first count : Nat)
  | list (slots : List Nat)
  deriving DecidableEq, Repr

/-- A step as a STEP carries it (R92). -/
structure StepFields where
  target   : Value
  duration : Nat
  dwell    : Nat
  curve    : Curve
  tie      : Bool
  deriving DecidableEq, Repr

/-- The option of a STEP (R92). -/
inductive StepOption where
  | append | replace
  deriving DecidableEq, Repr

/-- The fields of a SET_LINE (R136). -/
structure LineSettings where
  line          : LineNo
  enabled       : Bool
  rate          : Rate
  replyWindow   : Nat
  refreshPeriod : Nat
  joinPeriod    : Nat
  deriving DecidableEq, Repr

/-- A request that passes the form stage of R5, with the fields its frame carries. Slot numbers are as carried: the slot
stage comes after. -/
inductive Request where
  | seize (set : SlotSet) (group : Group)
  | release (set : SlotSet) (group : Group) (fade : Nat)
  | step (set : SlotSet) (group : Group) (option : StepOption) (mode : Option Mode) (lowMark : Option Nat)
      (steps : List StepFields)
  | halt (set : SlotSet) (group : Group)
  | setMode (set : SlotSet) (group : Group) (mode : Mode) (lowMark : Nat)
  | handoverAsk
  | handoverGive (fade : Nat)
  | handoverDecline
  | override (on : Bool) (fade : Nat)
  | safeClear (fade : Nat)
  | setLine (settings : LineSettings)
  | enrolLine (line : LineNo) (full : Bool)
  | setType (code : BitVec 16) (matrix : Matrix)
  | forget (set : SlotSet)
  | setLink (link : Link) (silenceLimit lossFade : Nat)
  | setPair (fade : Nat)
  | rigClear
  | keep
  | readSlot (slot : Nat)
  | readClaims (slot : Nat) (group : Group)
  | readLine (line : LineNo)
  | readType (entry : Fin 16)
  | readPart
  deriving DecidableEq, Repr

/-! ## Fields -/

/-- Read one byte from the front of a payload. -/
def readByte : List Byte → Option (Nat × List Byte)
  | b :: rest => some (b.toNat, rest)
  | [] => none

/-- Read a two-byte field. -/
def readWord : List Byte → Option (Nat × List Byte)
  | b1 :: b2 :: rest => some (number16 b1 b2, rest)
  | _ => none

/-- Read a four-byte field. -/
def readLong : List Byte → Option (Nat × List Byte)
  | b1 :: b2 :: b3 :: b4 :: rest => some (number16 b1 b2 * 65536 + number16 b3 b4, rest)
  | _ => none

/-- Read several two-byte fields. -/
def readWords : Nat → List Byte → Option (List Nat × List Byte)
  | 0, bytes => some ([], bytes)
  | k + 1, bytes => do
    let (v, rest) ← readWord bytes
    let (vs, rest) ← readWords k rest
    some (v :: vs, rest)

/-- The slot set row of R159: form byte 0, first, count 1–192; or form byte 1, n from 1 to 24, n slot numbers. -/
def readSlotSet : List Byte → Option (SlotSet × List Byte)
  | form :: a :: rest =>
    if form = 0#8 then
      match rest with
      | count :: rest =>
        if 1 ≤ count.toNat ∧ count.toNat ≤ 192 then some (.range a.toNat count.toNat, rest) else none
      | [] => none
    else if form = 1#8 then
      if 1 ≤ a.toNat ∧ a.toNat ≤ 24 ∧ a.toNat ≤ rest.length then
        some (.list ((rest.take a.toNat).map BitVec.toNat), rest.drop a.toNat)
      else none
    else none
  | _ => none

/-- The group row of R159. -/
def groupOfCode : Nat → Option Group
  | 0 => some .aim
  | 1 => some .colour
  | 2 => some .level
  | _ => none

/-- The mode row of R159. -/
def modeOfCode : Nat → Option Mode
  | 0 => some .oneShot
  | 1 => some .loop
  | _ => none

/-- The option row of R159. -/
def optionOfCode : Nat → Option StepOption
  | 0 => some .append
  | 1 => some .replace
  | _ => none

/-- The on/off, yes/no row of R159: 1 for on and yes, 0 for off and no, which the row does not say (log entry 32). -/
def boolOfCode : Nat → Option Bool
  | 0 => some false
  | 1 => some true
  | _ => none

/-- The rate code row of R159. -/
def rateOfCode : Nat → Option Rate
  | 0 => some .r250
  | 1 => some .r500
  | 2 => some .r1000
  | 3 => some .r2000
  | _ => none

/-- The link row of R159. -/
def linkOfCode : Nat → Option Link
  | 0 => some .cl0
  | 1 => some .cl1
  | 2 => some .cl2
  | 3 => some .cl3
  | _ => none

/-- The line row of R159. -/
def lineOfCode (b : Nat) : Option LineNo := if h : b < 6 then some ⟨b, h⟩ else none

/-- The curve codes of R159. -/
def curveOfCode : Nat → Option Curve
  | 0 => some .linear
  | 1 => some .easeIn
  | 2 => some .easeOut
  | 3 => some .easeInOut
  | 4 => some .snap
  | 5 => some .snapEnd
  | _ => none

/-- A group code read from the front of a payload. -/
def readGroup (bytes : List Byte) : Option (Group × List Byte) := do
  let (b, rest) ← readByte bytes
  let g ← groupOfCode b
  some (g, rest)

/-- A mode code read from the front of a payload. -/
def readMode (bytes : List Byte) : Option (Mode × List Byte) := do
  let (b, rest) ← readByte bytes
  let m ← modeOfCode b
  some (m, rest)

/-- A low mark, 0–7 (R92, R103), in one byte: R159 has no row for it (log entry 34). -/
def readLowMark (bytes : List Byte) : Option (Nat × List Byte) := do
  let (b, rest) ← readByte bytes
  if b ≤ 7 then some (b, rest) else none

/-- A step as R159 codes it: target components, duration, dwell, and the curve-and-tie byte, in which bits 3 to 6 are 0. -/
def readStep (g : Group) (bytes : List Byte) : Option (StepFields × List Byte) := do
  let (target, rest) ← readWords g.width bytes
  let (duration, rest) ← readLong rest
  let (dwell, rest) ← readLong rest
  let (b, rest) ← readByte rest
  let curve ← curveOfCode (b % 128)
  some ({ target := target, duration := duration, dwell := dwell, curve := curve, tie := decide (128 ≤ b) }, rest)

/-- Several steps, in the order the request gives them. -/
def readSteps (g : Group) : Nat → List Byte → Option (List StepFields × List Byte)
  | 0, bytes => some ([], bytes)
  | k + 1, bytes => do
    let (x, rest) ← readStep g bytes
    let (xs, rest) ← readSteps g k rest
    some (x :: xs, rest)

/-- The fifteen coefficients of a SET_TYPE, row by row (R29). -/
def readMatrix : List Byte → Option Matrix
  | [a1, a2, a3, a4, a5, a6, b1, b2, b3, b4, b5, b6, c1, c2, c3, c4, c5, c6,
     d1, d2, d3, d4, d5, d6, e1, e2, e3, e4, e5, e6] =>
    some #v[⟨signed16 a1 a2, signed16 a3 a4, signed16 a5 a6⟩, ⟨signed16 b1 b2, signed16 b3 b4, signed16 b5 b6⟩,
            ⟨signed16 c1 c2, signed16 c3 c4, signed16 c5 c6⟩, ⟨signed16 d1 d2, signed16 d3 d4, signed16 d5 d6⟩,
            ⟨signed16 e1 e2, signed16 e3 e4, signed16 e5 e6⟩]
  | _ => none

/-- A payload must end where its fields end (R5, form stage). -/
def ended (rest : List Byte) (r : Request) : Option Request := if rest = [] then some r else none

/-! ## Payloads -/

/-- SEIZE, HALT: slot set, group. -/
def readSetAndGroup (bytes : List Byte) (make : SlotSet → Group → Request) : Option Request := do
  let (set, rest) ← readSlotSet bytes
  let (g, rest) ← readGroup rest
  ended rest (make set g)

/-- RELEASE: slot set, group, fade. -/
def readRelease (bytes : List Byte) : Option Request := do
  let (set, rest) ← readSlotSet bytes
  let (g, rest) ← readGroup rest
  let (fade, rest) ← readLong rest
  ended rest (.release set g fade)

/-- The optional field that a presence bit announces. -/
def readIf {α : Type} (present : Bool) (read : List Byte → Option (α × List Byte)) (bytes : List Byte) :
    Option (Option α × List Byte) :=
  if present then (read bytes).map (fun x => (some x.1, x.2)) else some (none, bytes)

/-- STEP: slot set, group, option, presence byte, mode and low mark if present, step count 1–8, the steps (R92, R159). -/
def readStepRequest (bytes : List Byte) : Option Request := do
  let (set, rest) ← readSlotSet bytes
  let (g, rest) ← readGroup rest
  let (o, rest) ← readByte rest
  let option ← optionOfCode o
  let (presence, rest) ← readByte rest
  if presence ≤ 3 then
    let (mode, rest) ← readIf (presence % 2 == 1) readMode rest
    let (low, rest) ← readIf (presence / 2 == 1) readLowMark rest
    let (count, rest) ← readByte rest
    if 1 ≤ count ∧ count ≤ 8 then
      let (steps, rest) ← readSteps g count rest
      ended rest (.step set g option mode low steps)
    else none
  else none

/-- SET_MODE: slot set, group, mode, low mark. -/
def readSetMode (bytes : List Byte) : Option Request := do
  let (set, rest) ← readSlotSet bytes
  let (g, rest) ← readGroup rest
  let (mode, rest) ← readMode rest
  let (low, rest) ← readLowMark rest
  ended rest (.setMode set g mode low)

/-- HANDOVER_GIVE, SAFE_CLEAR, SET_PAIR: fade. -/
def readFade (bytes : List Byte) (make : Nat → Request) : Option Request := do
  let (fade, rest) ← readLong bytes
  ended rest (make fade)

/-- OVERRIDE: setting, fade. -/
def readOverride (bytes : List Byte) : Option Request := do
  let (b, rest) ← readByte bytes
  let on ← boolOfCode b
  let (fade, rest) ← readLong rest
  ended rest (.override on fade)

/-- SET_LINE: line, enabled, rate code, reply window, refresh period, join period. -/
def readSetLine (bytes : List Byte) : Option Request := do
  let (b, rest) ← readByte bytes
  let line ← lineOfCode b
  let (b, rest) ← readByte rest
  let enabled ← boolOfCode b
  let (b, rest) ← readByte rest
  let rate ← rateOfCode b
  let (window, rest) ← readWord rest
  let (refresh, rest) ← readWord rest
  let (join, rest) ← readWord rest
  ended rest (.setLine { line := line, enabled := enabled, rate := rate, replyWindow := window,
                         refreshPeriod := refresh, joinPeriod := join })

/-- ENROL_LINE: line, form (FULL 0, JOIN 1). -/
def readEnrolLine (bytes : List Byte) : Option Request := do
  let (b, rest) ← readByte bytes
  let line ← lineOfCode b
  let (b, rest) ← readByte rest
  let join ← boolOfCode b
  ended rest (.enrolLine line (!join))

/-- SET_TYPE: type code, fifteen coefficients. -/
def readSetType (bytes : List Byte) : Option Request := do
  let (code, rest) ← readWord bytes
  let matrix ← readMatrix rest
  some (.setType (BitVec.ofNat 16 code) matrix)

/-- FORGET: slot set. -/
def readForget (bytes : List Byte) : Option Request := do
  let (set, rest) ← readSlotSet bytes
  ended rest (.forget set)

/-- SET_LINK: link, silence limit, loss fade. -/
def readSetLink (bytes : List Byte) : Option Request := do
  let (b, rest) ← readByte bytes
  let link ← linkOfCode b
  let (limit, rest) ← readWord rest
  let (fade, rest) ← readLong rest
  ended rest (.setLink link limit fade)

/-- READ_SLOT: slot. -/
def readReadSlot (bytes : List Byte) : Option Request := do
  let (n, rest) ← readByte bytes
  ended rest (.readSlot n)

/-- READ_CLAIMS: slot, group. -/
def readReadClaims (bytes : List Byte) : Option Request := do
  let (n, rest) ← readByte bytes
  let (g, rest) ← readGroup rest
  ended rest (.readClaims n g)

/-- READ_LINE: line. -/
def readReadLine (bytes : List Byte) : Option Request := do
  let (b, rest) ← readByte bytes
  let line ← lineOfCode b
  ended rest (.readLine line)

/-- READ_TYPE: entry 0–15, in one byte: R159 has no row for it (log entry 37). -/
def readReadType (bytes : List Byte) : Option Request := do
  let (b, rest) ← readByte bytes
  if h : b < 16 then ended rest (.readType ⟨b, h⟩) else none

/-- R5 form stage, R159: the request a good frame makes, or none where it is malformed or of unknown kind. -/
def Frame.request (f : Frame) : Option Request :=
  match f.kind.toNat with
  | 0x01 => readSetAndGroup f.payload .seize
  | 0x02 => readRelease f.payload
  | 0x03 => readStepRequest f.payload
  | 0x04 => readSetAndGroup f.payload .halt
  | 0x05 => readSetMode f.payload
  | 0x08 => ended f.payload .handoverAsk
  | 0x09 => readFade f.payload .handoverGive
  | 0x0A => ended f.payload .handoverDecline
  | 0x0B => readOverride f.payload
  | 0x0C => readFade f.payload .safeClear
  | 0x10 => readSetLine f.payload
  | 0x11 => readEnrolLine f.payload
  | 0x12 => readSetType f.payload
  | 0x13 => readForget f.payload
  | 0x14 => readSetLink f.payload
  | 0x15 => readFade f.payload .setPair
  | 0x16 => ended f.payload .rigClear
  | 0x18 => ended f.payload .keep
  | 0x19 => readReadSlot f.payload
  | 0x1A => readReadClaims f.payload
  | 0x1B => readReadLine f.payload
  | 0x1C => readReadType f.payload
  | 0x1D => ended f.payload .readPart
  | _ => none

/-! ## The slot stage of R5 -/

/-- A slot number that exists. -/
def slotOfNumber (n : Nat) : Option SlotNo := if h : n < 192 then some ⟨n, h⟩ else none

/-- The numbers a slot set names, in the order it names them. -/
def SlotSet.numbers : SlotSet → List Nat
  | .range first count => (List.range count).map (first + ·)
  | .list slots => slots

/-- R5: the slots of a set, each once; none where a number lies outside 0–191. -/
def SlotSet.slots (set : SlotSet) : Option (List SlotNo) := (set.numbers.mapM slotOfNumber).map List.eraseDups

/-! ## The permission stage of R5 -/

/-- R16: a setup request passes from the link that holds the ACTIVE role. -/
def State.isActive (s : State) (l : Link) : Bool := decide (l = s.pair.activeLink)

/-- R88: whether a link holds the STANDBY role. -/
def State.isStandby (s : State) (l : Link) : Bool := decide (l = s.pair.standbyLink)

/-- R84, R88: a HANDOVER_GIVE passes from the ACTIVE link while the STANDBY link is LIVE. -/
def State.mayGive (s : State) (l : Link) : Bool :=
  s.isActive l && decide ((s.link s.pair.standbyLink).state = .live)

/-! ## Taking the request in hand -/

/-- R4: a request row takes the request in hand on its link. `take` gives the state after the taking of a request of
the row's kind, and none for a request of another kind: then, as when nothing is in hand, this row does not come about
and the state stays as it is (log entry 4). -/
def State.takeInHand (s : State) (l : Link) (take : Frame → Request → Option State) : State :=
  match (s.link l).inHand with
  | none => s
  | some f =>
    match f.request with
    | none => s
    | some r => (take f r).getD s

/-- R5 slot stage: a request with a slot set that names a slot outside 0–191 is answered BAD_SLOT; otherwise its owner
goes on with the slots of the set. -/
def State.withSlots (s : State) (l : Link) (f : Frame) (set : SlotSet) (go : List SlotNo → State) : State :=
  match set.slots with
  | none => s.refuse l f .badSlot
  | some slots => go slots

/-- R5 permission stage: a request whose link may not send it now is answered NOT_PERMITTED. -/
def State.withPermission (s : State) (l : Link) (f : Frame) (permitted : Bool) (go : State) : State :=
  if permitted then go else s.refuse l f .notPermitted

end Sys2Proof.Machine
end

