-- ==== Sys2Proof/Machine/Steps.lean ====
section
/-! DEFINITION. Machine/Steps.lean: the step pool (R90), the expiry list (R97), starting, retiring and looping steps
(R91, R98 to R101), and what STEP, HALT and SET_MODE do to one claim (R94 to R96, R102, R103). -/

namespace Sys2Proof.Machine

/-! ## The step pool -/

/-- The record numbers of a claim's steps: its running step's and its pending steps'. -/
def Claim.records (c : Claim) : List Nat := ((c.running.map (fun r => r.step.record)).toList) ++ c.queue.map (·.record)

/-- The step records in use. -/
def State.stepRecords (s : State) : List Nat := s.claims.flatMap Claim.records

/-- R18, R90: the free records of the step pool. -/
def State.freeSteps (s : State) : Nat := Config.stepRecords - s.stepRecords.length

/-- R90: the lowest free numbers, as many as are needed. -/
def freeRecords (used : List Nat) : Nat → List Nat
  | 0 => []
  | k + 1 =>
    let n := firstFree used used.length 0
    n :: freeRecords (n :: used) k

/-! ## The expiry list -/

/-- R97: whether the expiry time `a` is at or before the expiry time `b`. No two entries lie more than 1,200,000 ms
apart, so the order is well defined across a wrap of the clock. -/
def notAfter (a b : Reading) : Bool := decide (elapsed a b < 2147483648)

/-- R97: an entry goes in at the tail of the entries with the same expiry time. -/
def insertEntry (e : ExpiryEntry) : List ExpiryEntry → List ExpiryEntry
  | [] => [e]
  | d :: rest => if notAfter d.time e.time then d :: insertEntry e rest else e :: d :: rest

/-! ## Starting a step -/

/-- R91, R97, R98: step `x` starts on claim `k` of slot `n` at reading `start` from `value`: its adjusted curve is
fixed (R100), its expiry entry is inserted and CHANGED is set. -/
def State.startStep (s : State) (k : Nat) (n : SlotNo) (x : Step) (value : Value) (start : Reading) (dropIn : Bool) :
    State :=
  let expiry := start + BitVec.ofNat 32 (x.duration + x.dwell)
  let run : RunningStep :=
    { step := x, startValue := value, startTime := start, adjusted := x.curve.adjust dropIn x.tie, expiry := expiry }
  ({ s.mapClaim k (fun c => { c with running := some run }) with
      expiryList := insertEntry { claim := k, time := expiry } s.expiryList }).setChanged n

/-! ## Retirement -/

/-- Whether a step has no time at all (R99). -/
def Step.instant (x : Step) : Bool := decide (x.duration = 0) && decide (x.dwell = 0)

/-- R98, R99: the pending queue from which the next step is taken: in LOOP mode the retiring step is at its tail, unless
the queue holds 8 or the step has no time at all. -/
def Claim.queueAtRetirement (c : Claim) (x : Step) : List Step :=
  if c.mode = .loop ∧ c.queue.length < Config.pendingQueueSize ∧ x.instant = false then c.queue ++ [x] else c.queue

/-- R101: when a step has left the pending queue to start in ONE_SHOT mode, QUEUE_LOW is raised if the count left is at
or below the low mark and the notice is armed, which it then is no longer. -/
def State.checkLowMark (s : State) (k : Nat) : State :=
  match s.claim k with
  | none => s
  | some c =>
    if c.mode = .oneShot ∧ c.armed = true ∧ c.queue.length ≤ c.lowMark then
      (s.mapClaim k (fun c => { c with armed := false })).raiseTo c.link (.queueLow c.slot c.group c.queue.length)
    else s

/-- R98: the retirement of a claim's running step at its expiry time. -/
def State.retire (s : State) (c : Claim) (r : RunningStep) : State :=
  let s1 := { s with expiryList := s.expiryList.filter (fun e => decide (e.claim ≠ c.number)) }
  match c.queueAtRetirement r.step with
  | [] => s1.mapClaim c.number (fun c => { c with running := none, queue := [], rest := r.step.target })
  | x :: rest =>
    ((s1.mapClaim c.number (fun c => { c with queue := rest })).startStep c.number c.slot x r.step.target r.expiry
      r.step.tie).checkLowMark c.number

/-- The first entry of the expiry list whose claim runs a step of no time at all. -/
def State.instantEntry (s : State) : Option (Claim × RunningStep) :=
  s.expiryList.findSome? fun e =>
    match s.claim e.claim with
    | none => none
    | some c =>
      match c.running with
      | none => none
      | some r => if r.step.instant then some (c, r) else none

/-- R97: steps whose expiry time equals their start time retire within the event that started them, in list order, until
none is left. Each such retirement returns a record for good (R99), so there are at most as many as records. -/
def State.retireInstant : Nat → State → State
  | 0, s => s
  | fuel + 1, s =>
    match s.instantEntry with
    | none => s
    | some (c, r) => State.retireInstant fuel (s.retire c r)

/-- R97: the end of an event that started steps. -/
def State.settleSteps (s : State) : State := State.retireInstant Config.stepRecords s

/-- R97, R98: the head of the expiry list is retired when it has fallen due. -/
def State.retireDue (s : State) : State :=
  match s.expiryList with
  | [] => s
  | e :: _ =>
    if notAfter e.time s.now then
      match s.claim e.claim with
      | none => s
      | some c =>
        match c.running with
        | none => s
        | some r => (s.retire c r).settleSteps
    else s

/-! ## STEP -/

/-- R92, R117: a step as it is copied into its record, its times brought into range. -/
def StepFields.toStep (x : StepFields) (record : Nat) : Step :=
  { record := record, target := x.target, duration := clampTime x.duration, dwell := clampTime x.dwell,
    curve := x.curve, tie := x.tie }

/-- R92: whether a time of the request is lowered. -/
def StepFields.clamped (x : StepFields) : Bool := outOfRange x.duration || outOfRange x.dwell

/-- R94, R103: the low notice is armed again when the pending count is above the low mark. -/
def State.arm (s : State) (k : Nat) : State :=
  s.mapClaim k (fun c => { c with armed := c.armed || decide (c.lowMark < c.queue.length) })

/-- The fields of a STEP other than its slot set and its steps (R92). -/
structure StepRequest where
  link    : Link
  group   : Group
  option  : StepOption
  mode    : Option Mode
  lowMark : Option Nat

/-- R94 item 2: the mode and the low mark, where the request carries them. -/
def StepRequest.setFields (q : StepRequest) (c : Claim) : Claim :=
  { c with mode := q.mode.getD c.mode, lowMark := q.lowMark.getD c.lowMark }

/-- R63, R95: the request's first step starts on the claim, and the rest join its empty pending queue. A claim that is
owner now and was not before is taken, and its step starts at the group's present value; any other starts at its own
value. `s` is the state with the claim found or created; `before` and `value` are the group's owner and present value
before the request. -/
def State.startSteps (s : State) (c : Claim) (before : Option Claim) (value : Value) (x : Step) (rest : List Step) :
    State × List (Link × SlotNo) :=
  let own := c.ownValue s.now
  let s1 := s.stampTaken c.number
  let taken := decide (s1.ownerNumber c.slot c.group = some c.number) &&
    !decide (before.map (·.number) = some c.number)
  let s2 := s1.settleOwner c.slot c.group c.number before false
  let s3 := (s2.1.returnSteps c.number).mapClaim c.number (fun c => { c with queue := rest })
  (s3.startStep c.number c.slot x (if taken then value else own) s.now false, s2.2)

/-- R94: one slot of a STEP, with the records its steps are copied into. -/
def State.stepSlot (s : State) (q : StepRequest) (n : SlotNo) (steps : List Step) : State × List (Link × SlotNo) :=
  let before := s.owner n q.group
  let value := s.present n q.group
  let s1 :=
    match s.claimOf q.link n q.group with
    | none => (s.evaluated n q.group).createClaim q.link n q.group value
    | some _ => s
  match s1.claimOf q.link n q.group with
  | none => (s1, [])
  | some c =>
    let s2 := s1.mapClaim c.number q.setFields
    let done :=
      match steps with
      | [] => (s2, [])
      | x :: rest =>
        if q.option = StepOption.replace ∨ c.running = none then s2.startSteps (q.setFields c) before value x rest
        else (s2.mapClaim c.number (fun c => { c with queue := c.queue ++ steps }), [])
    (done.1.arm c.number, done.2)

/-- The step records that the link's claims in the set hold; a REPLACE returns them within the taking (R93). -/
def State.recordsOf (s : State) (l : Link) (g : Group) (slots : List SlotNo) : List Nat :=
  slots.flatMap fun n => ((s.claimOf l n g).map Claim.records).getD []

/-- The slots of a set on which the link holds no claim on the group (R64). -/
def State.unclaimed (s : State) (l : Link) (g : Group) (slots : List SlotNo) : List SlotNo :=
  slots.filter (fun n => (s.claimOf l n g).isNone)

/-- R93: the three tests of a STEP, in their order; none when it passes them. -/
def State.stepTest (s : State) (q : StepRequest) (slots : List SlotNo) (count : Nat) : Option Status :=
  let returned := if q.option = StepOption.replace then (s.recordsOf q.link q.group slots).length else 0
  if s.freeClaims < (s.unclaimed q.link q.group slots).length then some .poolFull
  else if s.freeSteps + returned < count * slots.length then some .poolFull
  else if q.option = StepOption.append ∧ slots.any (fun n =>
      match s.claimOf q.link n q.group with
      | none => false
      | some c => c.running.isSome && decide (Config.pendingQueueSize < c.queue.length + count)) then some .queueFull
  else none

/-- R90, R93: the records the request's steps are copied into: the lowest free ones, those that a REPLACE returns
among them. -/
def State.recordsFor (s : State) (q : StepRequest) (slots : List SlotNo) (count : Nat) : List Nat :=
  let returned := if q.option = StepOption.replace then s.recordsOf q.link q.group slots else []
  freeRecords (s.stepRecords.filter (fun k => decide (k ∉ returned))) (count * slots.length)

/-- R94: every slot of a STEP, each with its own copies of the steps; and the groups that other links lost. -/
def State.stepSlots (q : StepRequest) (steps : List StepFields) :
    List SlotNo → List Nat → State → State × List (Link × SlotNo)
  | [], _, s => (s, [])
  | n :: slots, records, s =>
    let done := s.stepSlot q n (List.zipWith StepFields.toStep steps (records.take steps.length))
    let rest := State.stepSlots q steps slots (records.drop steps.length) done.1
    (rest.1, done.2 ++ rest.2)

/-- R94: a STEP that passes its tests: its slots, then the notices of displacement, then the steps of no time. -/
def State.takeStep (s : State) (q : StepRequest) (slots : List SlotNo) (steps : List StepFields) : State :=
  let done := State.stepSlots q steps slots (s.recordsFor q slots steps.length) s
  (done.1.raiseDisplaced q.link q.group done.2).settleSteps

/-! ## HALT and SET_MODE -/

/-- The link's claims on a group in a set of slots, in the order of the set. -/
def State.claimsIn (s : State) (l : Link) (g : Group) (slots : List SlotNo) : List Claim :=
  slots.filterMap (fun n => s.claimOf l n g)

/-- R102: a running claim is frozen: its pending steps return, and its running step is replaced, in its own record, by a
step of no time at the claim's own value. -/
def State.haltClaim (s : State) (c : Claim) : State :=
  match c.running with
  | none => s
  | some r =>
    let own := c.ownValue s.now
    (s.returnSteps c.number).startStep c.number c.slot
      { record := r.step.record, target := own, duration := 0, dwell := 0, curve := .linear, tie := false }
      own s.now false

/-- R103: a claim takes the mode and the low mark, and the arming of R94 is applied. -/
def State.setModeOf (s : State) (mode : Mode) (low : Nat) (c : Claim) : State :=
  (s.mapClaim c.number (fun c => { c with mode := mode, lowMark := low })).arm c.number

end Sys2Proof.Machine
end

