-- ==== Sys2Proof/Machine/ClaimCommands.lean ====
section
/-! DEFINITION. Machine/ClaimCommands.lean: the meanings of the rows on claims and steps: SEIZE, RELEASE, STEP_REPLACE,
STEP_APPEND, HALT, SET_MODE, STEP_EXPIRY and RIG_CLEAR. -/

namespace Sys2Proof.Machine

/-- R62: every slot of a SEIZE, and the groups that other links lost. -/
def State.seizeSlots (s : State) (l : Link) (g : Group) (slots : List SlotNo) : State × List (Link × SlotNo) :=
  slots.foldl
    (fun acc n =>
      let next := acc.1.seizeSlot l g n
      (next.1, acc.2 ++ next.2))
    (s, [])

/-- R62, R64: a SEIZE of slots that exist: whole, or refused whole when the pool does not cover its need. -/
def State.takeSeize (s : State) (l : Link) (g : Group) (slots : List SlotNo) (f : Frame) : State :=
  if s.freeClaims < (s.unclaimed l g slots).length then s.refuse l f .poolFull
  else
    let done := s.seizeSlots l g slots
    (done.1.raiseDisplaced l g done.2).answer l f .ok .none

/-- SEIZE (R62). -/
def execSeize (l : Link) (s : State) : Result :=
  .next <| s.whenRunning fun s => s.takeInHand l fun f r =>
    match r with
    | .seize set g => some (s.withSlots l f set fun slots => s.takeSeize l g slots f)
    | _ => none

/-- R65: a RELEASE of slots that exist. -/
def State.takeRelease (s : State) (l : Link) (g : Group) (slots : List SlotNo) (fade : Nat) (f : Frame) : State :=
  if (s.claimsIn l g slots).isEmpty then s.refuse l f .noClaim
  else
    (s.releaseClaims (s.claimsIn l g slots) (clampTime fade) .release).answer l f (takenStatus (outOfRange fade)) .none

/-- RELEASE (R65). -/
def execRelease (l : Link) (s : State) : Result :=
  .next <| s.whenRunning fun s => s.takeInHand l fun f r =>
    match r with
    | .release set g fade => some (s.withSlots l f set fun slots => s.takeRelease l g slots fade f)
    | _ => none

/-- R93, R94: a STEP of slots that exist. -/
def State.stepOrRefuse (s : State) (q : StepRequest) (slots : List SlotNo) (steps : List StepFields) (f : Frame) :
    State :=
  match s.stepTest q slots steps.length with
  | some status => s.refuse q.link f status
  | none => (s.takeStep q slots steps).answer q.link f (takenStatus (steps.any StepFields.clamped)) .none

/-- STEP_REPLACE (R95): a STEP with option REPLACE. -/
def execStepReplace (l : Link) (s : State) : Result :=
  .next <| s.whenRunning fun s => s.takeInHand l fun f r =>
    match r with
    | .step set g .replace mode low steps =>
      some (s.withSlots l f set fun slots =>
        s.stepOrRefuse { link := l, group := g, option := .replace, mode := mode, lowMark := low } slots steps f)
    | _ => none

/-- STEP_APPEND (R96): a STEP with option APPEND. -/
def execStepAppend (l : Link) (s : State) : Result :=
  .next <| s.whenRunning fun s => s.takeInHand l fun f r =>
    match r with
    | .step set g .append mode low steps =>
      some (s.withSlots l f set fun slots =>
        s.stepOrRefuse { link := l, group := g, option := .append, mode := mode, lowMark := low } slots steps f)
    | _ => none

/-- R102: a HALT of slots that exist. -/
def State.takeHalt (s : State) (l : Link) (g : Group) (slots : List SlotNo) (f : Frame) : State :=
  if (s.claimsIn l g slots).isEmpty then s.refuse l f .noClaim
  else (((s.claimsIn l g slots).foldl State.haltClaim s).settleSteps).answer l f .ok .none

/-- HALT (R102). -/
def execHalt (l : Link) (s : State) : Result :=
  .next <| s.whenRunning fun s => s.takeInHand l fun f r =>
    match r with
    | .halt set g => some (s.withSlots l f set fun slots => s.takeHalt l g slots f)
    | _ => none

/-- R103: a SET_MODE of slots that exist. -/
def State.takeSetMode (s : State) (l : Link) (g : Group) (slots : List SlotNo) (mode : Mode) (low : Nat) (f : Frame) :
    State :=
  if (s.claimsIn l g slots).isEmpty then s.refuse l f .noClaim
  else ((s.claimsIn l g slots).foldl (fun s c => s.setModeOf mode low c) s).answer l f .ok .none

/-- SET_MODE (R103). -/
def execSetMode (l : Link) (s : State) : Result :=
  .next <| s.whenRunning fun s => s.takeInHand l fun f r =>
    match r with
    | .setMode set g mode low => some (s.withSlots l f set fun slots => s.takeSetMode l g slots mode low f)
    | _ => none

/-- STEP_EXPIRY (R97, R98): the head of the expiry list has fallen due. -/
def execStepExpiry (s : State) : Result := .next <| s.whenRunning State.retireDue

/-- RIG_CLEAR (R75, R16). -/
def execRigClear (l : Link) (s : State) : Result :=
  .next <| s.whenRunning fun s => s.takeInHand l fun f r =>
    match r with
    | .rigClear => some (s.withPermission l f (s.isActive l) (s.clearRig.answer l f .ok .none))
    | _ => none

end Sys2Proof.Machine
end

