-- ==== Sys2Proof/Machine/Aim.lean ====
section
/-! DEFINITION. Machine/Aim.lean: the Aim Follower (R119 to R123). -/

namespace Sys2Proof.Machine

/-- R119: the allowed time of a normal build: the elapsed time since the reference time, at most 1000 ms. An old
reference time allows 1000 ms (R106). -/
def allowedTime (reference : Stamp) (t : Reading) : Nat := min (reference.age t) 1000

/-- R120: what one component emits: the present value where it lies within the allowed move of the reference value, and
the end of the allowed move toward it otherwise. -/
def limitMove (present reference allowed : Nat) : Nat :=
  if reference + allowed < present then reference + allowed
  else if present + allowed < reference then reference - allowed
  else present

/-- R120: whether the component is limited. -/
def isLimited (present reference allowed : Nat) : Bool :=
  decide (reference + allowed < present) || decide (present + allowed < reference)

/-- What a build emits for pan and tilt, and whether either was limited. -/
structure AimOutput where
  pan     : Nat
  tilt    : Nat
  limited : Bool
  deriving DecidableEq, Repr

/-- R119, R120: a normal build. -/
def normalAim (f : Fixture) (pan tilt : Nat) (t : Reading) : AimOutput :=
  let time := allowedTime f.refTime t
  { pan := limitMove pan f.refPan (f.panSpeed * time)
    tilt := limitMove tilt f.refTilt (f.tiltSpeed * time)
    limited := isLimited pan f.refPan (f.panSpeed * time) || isLimited tilt f.refTilt (f.tiltSpeed * time) }

/-- R123: a held build emits the reference; a component counts as limited when its present value differs from it. -/
def heldAim (f : Fixture) (pan tilt : Nat) : AimOutput :=
  { pan := f.refPan, tilt := f.refTilt, limited := decide (pan ≠ f.refPan) || decide (tilt ≠ f.refTilt) }

/-- R121, R123: the follower reference after a build. -/
def Fixture.withReference (f : Fixture) (pan tilt : Nat) (now : Stamp) : Fixture :=
  { f with refPan := pan, refTilt := tilt, refTime := now }

end Sys2Proof.Machine
end

