-- ==== Sys2Proof/Machine/Fixtures.lean ====
section
/-! DEFINITION. Machine/Fixtures.lean: the Fixture Table and the Type Table (Fixture Slots and Types): the map by unique
ID and the binding (R19, R21 to R23), types (R28 to R30), FORGET (R32), and a slot going MISSING (R50). -/

namespace Sys2Proof.Machine

/-! ## Slots of a line -/

/-- Whether a slot is bound to a line, ONLINE or MISSING. -/
def Slot.boundTo (x : Slot) (ln : LineNo) : Bool :=
  match x.fixture with
  | none => false
  | some f => decide (f.line = ln)

/-- The slots bound to a line, lowest number first. -/
def State.slotsOf (s : State) (ln : LineNo) : List SlotNo := allSlots.filter (fun n => (s.slot n).boundTo ln)

/-- The ONLINE slots bound to a line. -/
def State.onlineOf (s : State) (ln : LineNo) : List SlotNo :=
  (s.slotsOf ln).filter (fun n => decide ((s.slot n).state = .online))

/-- The MISSING slots bound to a line. -/
def State.missingOf (s : State) (ln : LineNo) : List SlotNo :=
  (s.slotsOf ln).filter (fun n => decide ((s.slot n).state = .missing))

/-! ## The map by unique ID -/

/-- R21: the bound slot that holds a unique ID. -/
def State.slotOfId (s : State) (x : BitVec 40) : Option SlotNo :=
  allSlots.find? (fun n => decide (((s.slot n).fixture.map (·.uniqueId)) = some x))

/-- R22: the slots other than x's own that are bound to a line. -/
def State.othersOn (s : State) (ln : LineNo) (x : BitVec 40) : List SlotNo :=
  (s.slotsOf ln).filter (fun n => decide (s.slotOfId x ≠ some n))

/-- R22: the short addresses of a line that are not free for x. -/
def State.reservedFor (s : State) (ln : LineNo) (x : BitVec 40) : List Nat :=
  (s.othersOn ln x).filterMap (fun n => (s.slot n).fixture.map (·.address))

/-- R22, R42: the lowest short address of a line that is free for x. -/
def State.lowestAddress (s : State) (ln : LineNo) (x : BitVec 40) : Option Nat :=
  ((List.range 32).map (· + 1)).find? (fun a => decide (a ∉ s.reservedFor ln x))

/-- The answers of the Fixture Table to a bind request (R21). -/
inductive BindAnswer where
  | returning (slot : SlotNo)
  | duplicate
  | new (slot : SlotNo)
  | tableFull
  deriving DecidableEq, Repr

/-- R22: the line capacity check. -/
def State.hasCapacity (s : State) (ln : LineNo) (x : BitVec 40) : Bool := decide ((s.othersOn ln x).length < 32)

/-- R21: what the Fixture Table answers to a request to bind unique ID x on a line. -/
def State.bindAnswer (s : State) (ln : LineNo) (x : BitVec 40) : BindAnswer :=
  match s.slotOfId x with
  | some n =>
    if (s.slot n).state = .online then .duplicate
    else if s.hasCapacity ln x then .returning n
    else .tableFull
  | none =>
    match allSlots.find? (fun n => decide ((s.slot n).state = .free)) with
    | none => .tableFull
    | some n => if s.hasCapacity ln x then .new n else .tableFull

/-! ## Types -/

/-- R28: the default matrix. -/
def defaultMatrix : Matrix := #v[⟨16384, 0, 0⟩, ⟨0, 16384, 0⟩, ⟨0, 0, 16384⟩, ⟨0, 0, 0⟩, ⟨0, 0, 0⟩]

/-- R23, R29: the in-use entry that holds a type code. -/
def State.entryOf (s : State) (code : BitVec 16) : Option (Fin 16) :=
  allEntries.find? (fun k => decide ((s.typeEntry k).map (·.code) = some code))

/-- R23, R29: the lowest-numbered unused entry. -/
def State.unusedEntry (s : State) : Option (Fin 16) := allEntries.find? (fun k => (s.typeEntry k).isNone)

/-- R23: the type index of a fixture that declares a type code, and the table with the entry made for it, if one was. -/
def State.typeFor (s : State) (code : BitVec 16) : State × Option (Fin 16) :=
  match s.entryOf code with
  | some k => (s, some k)
  | none =>
    match s.unusedEntry with
    | some k => (s.setTypeEntry k { code := code, matrix := defaultMatrix }, some k)
    | none => (s, none)

/-- R30: one slot at a SET_TYPE that wrote entry k. -/
def Slot.retyped (x : Slot) (code : BitVec 16) (k : Fin 16) : Slot :=
  match x.fixture with
  | none => x
  | some f =>
    let index := if f.typeCode = code ∧ f.typeIndex = none then some k else f.typeIndex
    if index = some k then
      { x with fixture := some { f with typeIndex := index }, flags := { x.flags with changed := true } }
    else x

/-- R29, R30: entry k is written, and the slots it concerns take its number and CHANGED. -/
def State.writeType (s : State) (k : Fin 16) (code : BitVec 16) (matrix : Matrix) : State :=
  allSlots.foldl (fun s n => s.setSlot n ((s.slot n).retyped code k)) (s.setTypeEntry k { code := code, matrix := matrix })

/-- R31: the bound slots whose type index is an entry. -/
def State.typeUsers (s : State) (k : Fin 16) : Nat :=
  (s.boundSlots.filter (fun n => decide ((s.slot n).fixture.bind (·.typeIndex) = some k))).length

/-! ## Binding -/

/-- What a fixture's CAPS declares (section 12.2). -/
structure Caps where
  conditions : ConditionSet
  pan        : Nat
  tilt       : Nat
  typeCode   : BitVec 16
  emitters   : Nat
  maxRate    : Rate
  panSpeed   : Nat
  tiltSpeed  : Nat
  deriving DecidableEq, Repr

/-- R19, R44, R125: the fixture fields a binding writes; `lastSent` is that of a returning slot, absent in a new one. -/
def Caps.fixture (c : Caps) (x : BitVec 40) (ln : LineNo) (address : Nat) (index : Option (Fin 16))
    (lastSent : Option LastSent) (now : Stamp) : Fixture :=
  { online := true, uniqueId := x, line := ln, address := address, typeCode := c.typeCode, typeIndex := index
    emitters := c.emitters, maxRate := c.maxRate, panSpeed := c.panSpeed, tiltSpeed := c.tiltSpeed
    refPan := c.pan, refTilt := c.tilt, refTime := now, lastSent := lastSent, conditions := c.conditions
    misses := 0, pollTime := none }

/-- R44, R53, R151: the binding of x into slot n: the slot's fields, CHANGED, FIXTURE_JOINED and then the notices of the
conditions that entered or left. -/
def State.bindInto (s : State) (n : SlotNo) (ln : LineNo) (x : BitVec 40) (address : Nat) (c : Caps) (returned : Bool) :
    State :=
  let old := (s.slot n).fixture
  let typed := s.typeFor c.typeCode
  let f := c.fixture x ln address typed.2 (old.bind (·.lastSent)) s.stampNow
  let bound := (typed.1.setSlot n { s.slot n with fixture := some f }).setChanged n
  (bound.raiseAll (.fixtureJoined n ln address c.typeCode returned)).raiseConditions n
    ((old.map (·.conditions)).getD ConditionSet.empty) c.conditions

/-! ## Losing a fixture, and forgetting it -/

/-- R50: a slot becomes MISSING, with no poll time, and FIXTURE_GONE is raised; the rest of it is kept. -/
def State.makeMissing (s : State) (cause : GoneCause) (n : SlotNo) : State :=
  match (s.slot n).fixture with
  | none => s
  | some f =>
    (s.setSlot n { s.slot n with fixture := some { f with online := false, pollTime := none } }).raiseAll
      (.fixtureGone n f.line f.address cause)

/-- R32: a MISSING slot becomes FREE: it loses its fixture, and its four flags clear. -/
def State.forgetSlot (s : State) (n : SlotNo) : State :=
  if (s.slot n).state = .missing then s.setSlot n { s.slot n with fixture := none, flags := SlotFlags.allClear } else s

end Sys2Proof.Machine
end

