-- ==== Sys2Proof/Machine/Colour.lean ====
section
/-! DEFINITION. Machine/Colour.lean: the Colour Resolver (R127 to R133). -/

namespace Sys2Proof.Machine

/-- R129: the raw level of an emitter: the weighted sum divided by 16384, floor toward minus infinity, taken once. -/
def rawLevel (row : MatrixRow) (c1 c2 c3 : Nat) : Int :=
  (row.c1 * (c1 : Int) + row.c2 * (c2 : Int) + row.c3 * (c3 : Int)) / 16384

/-- R129, R130: the raw levels of emitters 1 to E, negative ones replaced by 0. -/
def rawLevels (m : Matrix) (emitters : Nat) (c1 c2 c3 : Nat) : List Nat :=
  (m.toList.take emitters).map (fun row => (rawLevel row c1 c2 c3).toNat)

/-- The largest of a list of raw levels. -/
def largest (raws : List Nat) : Nat := raws.foldl max 0

/-- R131: gamut scaling. -/
def gamutScale (raws : List Nat) : List Nat :=
  if largest raws ≤ 65535 then raws else raws.map (fun raw => raw * 65535 / largest raws)

/-- R131: whether the build needs gamut scaling. -/
def outOfGamut (raws : List Nat) : Bool := decide (65535 < largest raws)

/-- R132: level scaling. -/
def scaleLevel (level raw : Nat) : Nat := (raw * level + 32767) / 65535

/-- R127 to R132: the emitter levels of a build, and whether it sets GAMUT. -/
def resolveColour (m : Matrix) (emitters : Nat) (intent : Value) (level : Nat) : List Nat × Bool :=
  let raws := rawLevels m emitters (intent.getD 0 0) (intent.getD 1 0) (intent.getD 2 0)
  ((gamutScale raws).map (scaleLevel level), outOfGamut raws)

/-- R128: the matrix a build uses. -/
def State.matrixFor (s : State) (index : Option (Fin 16)) : Matrix :=
  match index with
  | none => defaultMatrix
  | some k =>
    match s.typeEntry k with
    | none => defaultMatrix
    | some e => e.matrix

/-- R133: the level handed to the resolver. -/
def State.levelFor (s : State) (present : Value) : Nat := if s.safety = .clear then present.getD 0 0 else 0

end Sys2Proof.Machine
end

