-- ==== Sys2Proof/Machine/Lines.lean ====
section
/-! DEFINITION. Machine/Lines.lean: the Line Sequencers (Line Sequencer and Scheduling): frames and their times (R138,
R139, R160), the effective rate (R142), the end of an exchange and the rest after it (R141), the scheduler's classes and
pick (R143, R144), the SET frame build (R146), and disable and enable (R147, R148); with the starting and ending of an
operation (R38, R39). -/

namespace Sys2Proof.Machine

/-! ## Frames and times -/

/-- The character time at a rate, in microseconds: ten bit times (chapter 12). -/
def Rate.charMicros : Rate → Nat
  | .r250 => 40
  | .r500 => 20
  | .r1000 => 10
  | .r2000 => 5

/-- A rate in kbit/s. -/
def Rate.kbits : Rate → Nat
  | .r250 => 250
  | .r500 => 500
  | .r1000 => 1000
  | .r2000 => 2000

/-- The smaller of two rates. -/
def Rate.least (a b : Rate) : Rate := if a.kbits ≤ b.kbits then a else b

/-- A fixture-line frame of an address, a kind and a payload, with its CRC-8 (section 12.2). -/
def lineBytes (address : Nat) (kind : Byte) (payload : List Byte) : List Byte :=
  let body := BitVec.ofNat 8 address :: kind :: payload
  body ++ [crc8 body]

/-- The bytes of the frames the part sends on a line (section 12.2). -/
def LineFrame.bytes : LineFrame → List Byte
  | .set _ address pan tilt levels => lineBytes address 1#8 (bytes16 pan ++ bytes16 tilt ++ levels.flatMap bytes16)
  | .poll _ address => lineBytes address 2#8 []
  | .drop address => lineBytes address 7#8 []
  | .call => lineBytes 63 4#8 []
  | .assign x address => lineBytes 63 5#8 (bytes40 x.toNat ++ [BitVec.ofNat 8 address])

/-- R139: the characters of the reply a frame expects: an ACK after SET and POLL, a CAPS after ASSIGN, none otherwise. -/
def LineFrame.replyLength : LineFrame → Nat
  | .set .. => 8
  | .poll .. => 8
  | .assign .. => 16
  | .drop _ => 0
  | .call => 0

/-- R138: a frame begins to go out at a rate, character after character without a gap. -/
def State.beginExchange (s : State) (ln : LineNo) (frame : LineFrame) (rate : Rate) : State :=
  s.setLine ln
    { s.line ln with
      exchange := some { frame := frame, rate := rate, phase := .frame
                         ends := s.micros + rate.charMicros * frame.bytes.length } }

/-- R139: the reply window opens, as long as the setting and the expected reply at the rate of the exchange. -/
def State.openWindow (s : State) (ln : LineNo) (x : Exchange) : State :=
  s.setLine ln
    { s.line ln with
      exchange := some { x with
        phase := .window
        ends := s.micros + (s.line ln).replyWindow + x.rate.charMicros * x.frame.replyLength } }

/-- R141: a line rests for two character times at the rate of the exchange that ended. -/
def restMicros (rate : Rate) : Nat := 2 * rate.charMicros

/-- R141: whether a line has rested. -/
def State.rested (s : State) (ln : LineNo) : Bool := decide ((s.line ln).restedAt ≤ s.micros)

/-- R160: whether the part drives a line: while it sends a frame and in the rest that follows an exchange, but in no
reply or arbitration window; and never in reset (R161). A rest that characters begin before the first exchange after
reset counts as such a rest (log entry 28). -/
def State.drives (s : State) (ln : LineNo) : Bool :=
  !s.inReset &&
    (match (s.line ln).exchange with
      | some x => decide (x.phase = .frame)
      | none => !s.rested ln)

/-! ## The effective rate -/

/-- R142: the smallest of the requested rate and the maximum rate of every ONLINE slot bound to the line. -/
def State.slowest (s : State) (ln : LineNo) : Rate :=
  (s.onlineOf ln).foldl
    (fun r n =>
      match (s.slot n).fixture with
      | none => r
      | some f => r.least f.maxRate)
    (s.line ln).requested

/-- R142: the effective rate is recomputed. -/
def State.recompute (s : State) (ln : LineNo) : State := s.setLine ln { s.line ln with effective := s.slowest ln }

/-! ## Operations -/

/-- R37: an enrolment record at rest. -/
def EnrolRecord.atRest (bound : Nat) : EnrolRecord :=
  { operation := .none, subState := none, captured := none, offered := none
    attempt := none, bound := bound, giveUp := none }

/-- R37, R38, R47, R148: an operation begins in a sub-state with bound count 0. -/
def EnrolRecord.start (operation : Operation) (subState : SubState) : EnrolRecord :=
  { EnrolRecord.atRest 0 with operation := operation, subState := some subState }

/-- Change the enrolment record of a line. -/
def State.mapEnrol (s : State) (ln : LineNo) (change : EnrolRecord → EnrolRecord) : State :=
  s.setLine ln { s.line ln with enrol := change (s.line ln).enrol }

/-- R39: an operation ends: its record is at rest, the sequencer is IDLE, and ENROL_DONE is raised, but for a joining
operation that found nobody. -/
def State.endOperation (s : State) (ln : LineNo) (outcome : EnrolOutcome) : State :=
  let e := (s.line ln).enrol
  let ended := s.setLine ln { s.line ln with enrol := EnrolRecord.atRest e.bound, seq := .idle }
  if e.operation = .joining ∧ outcome = .complete ∧ e.bound = 0 then ended
  else ended.raiseAll (.enrolDone ln e.bound outcome)

/-- R39: a STOPPED end: the condition is entered and joining suspended before ENROL_DONE. -/
def State.stopOperation (s : State) (ln : LineNo) (condition : LineCondition) : State :=
  let entered := s.putCondition ln condition true
  (entered.setLine ln { entered.line ln with joinSuspended := true }).endOperation ln .stopped

/-! ## Disable -/

/-- R147: the disable takes its effects. -/
def State.goOff (s : State) (ln : LineNo) : State :=
  let off := s.setLine ln { s.line ln with seq := .off, disablePending := false }
  ((off.onlineOf ln).foldl (State.makeMissing · .lineOff) off).recompute ln

/-- R39, R147: an operation that is running ends ABANDONED, and the line goes OFF. -/
def State.abandonAndGoOff (s : State) (ln : LineNo) : State :=
  (if (s.line ln).enrol.operation = .none then s else s.endOperation ln .abandoned).goOff ln

/-! ## The end of an exchange -/

/-- R137, R141, R147: an exchange ends: the line begins its rest, and becomes OFF when a disable is pending, ENROLLING
while an operation runs, and IDLE otherwise. -/
def State.endExchange (s : State) (ln : LineNo) : State :=
  let r := s.line ln
  let rate := (r.exchange.map (·.rate)).getD r.restRate
  let freed := s.setLine ln { r with exchange := none, restRate := rate, restedAt := s.micros + restMicros rate }
  if r.disablePending then freed.abandonAndGoOff ln
  else freed.setLine ln { freed.line ln with seq := if r.enrol.operation = .none then .idle else .enrolling }

/-! ## The scheduler -/

/-- The classes of a pick in which a slot can be a member, the most pressing first (R143). -/
inductive SlotClass where
  | urgent | changed | overdue | moving | refresh | recover
  deriving DecidableEq, Repr

/-- R143: a slot's time since last sent. -/
def Fixture.sinceSent (f : Fixture) (t : Reading) : Nat := ageOrNever (f.lastSent.map (·.time)) t

/-- R143: whether a group puts its slot in MOVING: the owner's running step is in phase MOVING, or a crossfade record
has run for less than its duration. -/
def State.groupMoves (s : State) (n : SlotNo) (g : Group) : Bool :=
  (s.runningFade n g).isSome ||
    (match (s.owner n g).bind (·.running) with
      | none => false
      | some r => decide (r.phase s.now = .moving))

/-- R51, R143: whether a bound slot is a member of a class of its line at a pick. -/
def State.memberOf (s : State) (n : SlotNo) (f : Fixture) (k : SlotClass) : Bool :=
  let refresh := (s.line f.line).refreshPeriod
  match k with
  | .urgent => f.online && (s.slot n).flags.urgent
  | .changed => f.online && (s.slot n).flags.changed
  | .overdue => f.online && decide (3 * refresh < f.sinceSent s.now)
  | .moving => f.online && (allGroups.any (s.groupMoves n) || (s.slot n).flags.lagging)
  | .refresh => f.online && decide (refresh ≤ f.sinceSent s.now)
  | .recover => !f.online && decide ((s.line f.line).joinPeriod ≤ ageOrNever f.pollTime s.now)

/-- R144: how long ago a slot was sent, for the first five classes, or polled, for RECOVER. -/
def Fixture.waited (f : Fixture) (k : SlotClass) (t : Reading) : Nat :=
  match k with
  | .recover => ageOrNever f.pollTime t
  | _ => f.sinceSent t

/-- The members of a class of a line, lowest slot first, each with how long it has waited. -/
def State.members (s : State) (ln : LineNo) (k : SlotClass) : List (SlotNo × Nat) :=
  (s.slotsOf ln).filterMap fun n =>
    match (s.slot n).fixture with
    | none => none
    | some f => if s.memberOf n f k then some (n, f.waited k s.now) else none

/-- R144: the member that has waited longest, the lower slot number among equals. -/
def longestWaiting : List (SlotNo × Nat) → Option (SlotNo × Nat)
  | [] => none
  | x :: rest =>
    match longestWaiting rest with
    | none => some x
    | some y => if y.2 ≤ x.2 then some x else some y

/-- The classes in the order of R143, all but JOIN. -/
def allClasses : List SlotClass := [.urgent, .changed, .overdue, .moving, .refresh, .recover]

/-- R144: the highest class that has a member, and the member taken. -/
def State.pickSlot (s : State) (ln : LineNo) : Option (SlotClass × SlotNo) :=
  allClasses.findSome? fun k => (longestWaiting (s.members ln k)).map (fun x => (k, x.1))

/-- R47: whether the line is a member of its JOIN class. -/
def State.joinDue (s : State) (ln : LineNo) : Bool :=
  !(s.line ln).joinSuspended && decide ((s.line ln).joinPeriod ≤ ageOrNever (s.line ln).lastCall s.now)

/-- R145: whether a pick can be made: the sequencer is IDLE, the line has rested and no disable is pending. -/
def State.mayPick (s : State) (ln : LineNo) : Bool :=
  decide ((s.line ln).seq = .idle) && s.rested ln && !(s.line ln).disablePending

/-! ## The SET frame build -/

/-- R146 items 2 and 3: what a build of slot n gives: the aim, the emitter levels, and whether GAMUT is set. -/
def State.buildAim (s : State) (n : SlotNo) (f : Fixture) : AimOutput :=
  let aim := s.present n .aim
  if s.safety = .clear then normalAim f (aim.getD 0 0) (aim.getD 1 0) s.now
  else heldAim f (aim.getD 0 0) (aim.getD 1 0)

/-- R127, R146: the emitter levels and GAMUT of a build of slot n. -/
def State.buildColour (s : State) (n : SlotNo) (f : Fixture) : List Nat × Bool :=
  resolveColour (s.matrixFor f.typeIndex) f.emitters (s.present n .colour) (s.levelFor (s.present n .level))

/-- R146: the evaluation of the three groups of a slot. -/
def State.evaluatedAll (s : State) (n : SlotNo) : State := ((s.evaluated n .aim).evaluated n .colour).evaluated n .level

/-- R146: the slot record and flags after a build. -/
def State.builtSlot (s : State) (n : SlotNo) (f : Fixture) : Slot :=
  let aim := s.buildAim n f
  let colour := s.buildColour n f
  let sent : LastSent := { pan := aim.pan, tilt := aim.tilt, levels := colour.1, time := s.stampNow }
  let f := if s.safety = .clear then f.withReference aim.pan aim.tilt s.stampNow else f
  { s.slot n with
    fixture := some { f with lastSent := some sent }
    flags := { changed := false, urgent := false, lagging := aim.limited, gamut := colour.2 } }

/-- R138, R146: a SET exchange with slot n is picked: its frame is built, at one reading, and begins to go out. -/
def State.startSet (s : State) (ln : LineNo) (n : SlotNo) (f : Fixture) : State :=
  let aim := s.buildAim n f
  let evaluated := s.evaluatedAll n
  let built := evaluated.setSlot n { s.builtSlot n f with fades := (evaluated.slot n).fades }
  let sending := built.setLine ln { built.line ln with seq := .sending }
  sending.beginExchange ln (.set n f.address aim.pan aim.tilt (s.buildColour n f).1) (s.line ln).effective

/-- R51, R138: a POLL exchange with slot n is picked. -/
def State.startPoll (s : State) (ln : LineNo) (n : SlotNo) (f : Fixture) : State :=
  let polled := s.setSlot n { s.slot n with fixture := some { f with pollTime := some s.stampNow } }
  let sending := polled.setLine ln { polled.line ln with seq := .sending }
  sending.beginExchange ln (.poll n f.address) (s.line ln).effective

/-- R41, R47, R138, R144: the JOIN class is picked: a joining operation begins in CALLING, and with it the exchange of its
first CALL, at 250 kbit/s, which sets the last-call time. -/
def State.startJoining (s : State) (ln : LineNo) : State :=
  (s.setLine ln
    { s.line ln with
      seq := .enrolling
      enrol := EnrolRecord.start .joining .calling
      lastCall := some s.stampNow }).beginExchange ln .call .r250

/-- R144, R145: the pick of a line. -/
def State.pick (s : State) (ln : LineNo) : State :=
  if s.mayPick ln then
    match s.pickSlot ln with
    | some (k, n) =>
      match (s.slot n).fixture with
      | none => s
      | some f => if k = .recover then s.startPoll ln n f else s.startSet ln n f
    | none => if s.joinDue ln then s.startJoining ln else s
  else s

/-! ## Enable and disable by SET_LINE -/

/-- R136: the times of a SET_LINE in their ranges. -/
def LineRec.withSettings (r : LineRec) (enabled : Bool) (rate : Rate) (window refresh join : Nat) : LineRec :=
  { r with
    enabled := enabled
    requested := rate
    replyWindow := clampBetween 100 2000 window
    refreshPeriod := clampBetween 100 5000 refresh
    joinPeriod := clampBetween 250 10000 join }

/-- R147: a SET_LINE with enabled off. -/
def State.disable (s : State) (ln : LineNo) : State :=
  let r := s.line ln
  if r.seq = .off ∨ r.disablePending = true then s
  else if r.seq = .idle then s.goOff ln
  else if r.seq = .enrolling ∧ r.exchange = none then s.abandonAndGoOff ln
  else s.setLine ln { r with disablePending := true }

/-- R148: a SET_LINE with enabled on. The DROP of a FULL enrolment that it begins is the ENROLLING line's next frame, sent
when the line has rested (log entry 38). -/
def State.enable (s : State) (ln : LineNo) : State :=
  let r := s.line ln
  if r.seq = .off then s.setLine ln { r with seq := .enrolling, enrol := EnrolRecord.start .full .dropping }
  else s.setLine ln { r with disablePending := false }

end Sys2Proof.Machine
end

