-- ==== Sys2Proof/Machine/Replies.lean ====
section
/-! DEFINITION. Machine/Replies.lean: how a reply is judged (R140, R43, R160), what the end of a SET or POLL exchange
does to its slot (R49 to R52, R126, R151), and the exchanges of an enrolment (R40 to R45). -/

namespace Sys2Proof.Machine

/-! ## Judging a reply -/

/-- The outcomes of a reply to a SET or POLL frame (R140). -/
inductive AckOutcome where
  | good (conditions : ConditionSet) (pan tilt : Nat)
  | wrongAddress
  | bad
  deriving DecidableEq, Repr

/-- R140, R152, R160: a reply is judged by its first eight characters. It is checked when its CRC-8 is right and its kind
is ACK; a checked ACK from another address is a wrong address, whatever its stop bits, and one from the address is good
when it holds no broken character. -/
def judgeAck (address : Nat) (reply : List RxChar) : AckOutcome :=
  match (reply.take 8).map (·.byte) with
  | [a, k, c, p1, p2, t1, t2, check] =>
    if k = 3#8 ∧ check = crc8 [a, k, c, p1, p2, t1, t2] then
      if a.toNat ≠ address then .wrongAddress
      else if (reply.take 8).all (·.stopOk) then .good (ConditionSet.ofByte c) (number16 p1 p2) (number16 t1 t2)
      else .bad
    else .bad
  | _ => .bad

/-- R43: the ranges a good CAPS keeps. -/
def Caps.inRange (c : Caps) : Bool :=
  decide (3 ≤ c.emitters ∧ c.emitters ≤ 5 ∧ 1 ≤ c.panSpeed ∧ c.panSpeed ≤ 4095 ∧ 1 ≤ c.tiltSpeed ∧ c.tiltSpeed ≤ 4095)

/-- R43, R160: what a good CAPS from the offered address declares, or none where the CAPS is not good. The tests are those
that R43 lists; it names no broken character, unlike R140, and so the stop bits of a CAPS do not count (log entry 31). -/
def judgeCaps (address : Nat) (reply : List RxChar) : Option Caps :=
  match (reply.take 16).map (·.byte) with
  | [a, k, c, p1, p2, t1, t2, y1, y2, e, r, ps1, ps2, ts1, ts2, check] =>
    if k = 6#8 ∧ a.toNat = address ∧
        check = crc8 [a, k, c, p1, p2, t1, t2, y1, y2, e, r, ps1, ps2, ts1, ts2] then
      match rateOfCode r.toNat with
      | none => none
      | some rate =>
        let caps : Caps :=
          { conditions := ConditionSet.ofByte c, pan := number16 p1 p2, tilt := number16 t1 t2
            typeCode := BitVec.ofNat 16 (number16 y1 y2), emitters := e.toNat, maxRate := rate
            panSpeed := number16 ps1 ps2, tiltSpeed := number16 ts1 ts2 }
        if caps.inRange then some caps else none
    else none
  | _ => none

/-! ## The end of a SET or POLL exchange -/

/-- R49, R126, R140, R151: a good ACK to a SET frame. POSITION_LOST entering moves the follower reference. -/
def State.ackSet (s : State) (n : SlotNo) (f : Fixture) (c : ConditionSet) (pan tilt : Nat) : State :=
  let lost := c.positionLost && !f.conditions.positionLost
  let f1 := if lost then f.withReference pan tilt s.stampNow else f
  (s.setSlot n { s.slot n with fixture := some { f1 with misses := 0, conditions := c } }).raiseConditions n
    f.conditions c

/-- R52: a good ACK to a RECOVER POLL returns its slot. -/
def State.ackPoll (s : State) (ln : LineNo) (n : SlotNo) (f : Fixture) (c : ConditionSet) (pan tilt : Nat) : State :=
  let f1 := f.withReference pan tilt s.stampNow
  let back := { f1 with online := true, misses := 0, conditions := c, pollTime := none }
  (((((s.setSlot n { s.slot n with fixture := some back }).setChanged n).raiseAll
    (.fixtureJoined n ln f.address f.typeCode true)).raiseConditions n f.conditions c)).recompute ln

/-- R49, R50: a miss on a SET exchange; a third miss puts the slot MISSING. -/
def State.missSet (s : State) (ln : LineNo) (n : SlotNo) (f : Fixture) : State :=
  let counted := s.setSlot n { s.slot n with fixture := some { f with misses := f.misses + 1 } }
  if 3 ≤ f.misses + 1 then (counted.makeMissing .misses n).recompute ln else counted

/-- R140: the slot that a SET or POLL exchange applies to, as it stands at the end of the exchange: for a SET, ONLINE on
the line; for a POLL, MISSING on the line (R33). -/
def State.exchangeSlot (s : State) (ln : LineNo) (n : SlotNo) (online : Bool) : Option Fixture :=
  match (s.slot n).fixture with
  | none => none
  | some f => if f.line = ln ∧ f.online = online then some f else none

/-- R140: what a SET exchange's outcome does to its slot. -/
def State.applySet (s : State) (ln : LineNo) (n : SlotNo) (outcome : AckOutcome) : State :=
  match s.exchangeSlot ln n true with
  | none => s
  | some f =>
    match outcome with
    | .good c pan tilt => s.ackSet n f c pan tilt
    | _ => s.missSet ln n f

/-- R140: what a POLL exchange's outcome does to its slot. -/
def State.applyPoll (s : State) (ln : LineNo) (n : SlotNo) (outcome : AckOutcome) : State :=
  match outcome with
  | .good c pan tilt =>
    match s.exchangeSlot ln n false with
    | none => s
    | some f => s.ackPoll ln n f c pan tilt
  | _ => s

/-- R140: the outcome of a SET or POLL exchange, applied to its slot and to the line condition set. -/
def State.applyOutcome (s : State) (ln : LineNo) (frame : LineFrame) (outcome : AckOutcome) : State :=
  let applied :=
    match frame with
    | .set n .. => s.applySet ln n outcome
    | .poll n _ => s.applyPoll ln n outcome
    | _ => s
  if outcome = .wrongAddress then applied.putCondition ln .wrongAddress true else applied

/-- The address of a SET or POLL frame. -/
def LineFrame.slotAddress : LineFrame → Option Nat
  | .set _ a _ _ _ => some a
  | .poll _ a => some a
  | _ => none

/-- R139, R140: a reply to a SET or POLL frame ends while its window is open. -/
def State.endReply (s : State) (ln : LineNo) (reply : List RxChar) : State :=
  match (s.line ln).exchange with
  | none => s
  | some x =>
    match x.frame.slotAddress with
    | none => s
    | some a =>
      if x.phase = .window ∧ s.micros ≤ x.ends then (s.applyOutcome ln x.frame (judgeAck a reply)).endExchange ln
      else s

/-- R139, R140: the window of a SET or POLL exchange expires: a miss. -/
def State.expireReply (s : State) (ln : LineNo) : State :=
  match (s.line ln).exchange with
  | none => s
  | some x =>
    match x.frame.slotAddress with
    | none => s
    | some _ =>
      if x.phase = .window ∧ x.ends ≤ s.micros then (s.applyOutcome ln x.frame .bad).endExchange ln else s

/-! ## The exchanges of an operation -/

/-- R138: the frame that an ENROLLING line is to send: the DROP that gives a fixture up (R39), or what its sub-state
calls for. -/
def EnrolRecord.nextFrame (e : EnrolRecord) : Option LineFrame :=
  match e.giveUp with
  | some g => some (.drop g.address)
  | none =>
    match e.subState, e.captured, e.offered with
    | some .dropping, _, _ => some (.drop 0)
    | some .calling, _, _ => some .call
    | some .assigning, some x, some a => some (.assign x a)
    | _, _, _ => none

/-- R38, R41, R138, R141: a rested ENROLLING line begins its next frame, at 250 kbit/s; a CALL sets the last-call time. The
first CALL of a joining operation is begun by its pick (`State.startJoining`). The DROP of an enable, which R148 sends at
once, waits for the rest of R141 like any other frame (log entry 38). -/
def State.startEnrolFrame (s : State) (ln : LineNo) : State :=
  let r := s.line ln
  if r.seq = .enrolling ∧ r.exchange = none ∧ s.rested ln = true then
    match r.enrol.nextFrame with
    | none => s
    | some frame =>
      let called := if frame = .call then s.setLine ln { r with lastCall := some s.stampNow } else s
      called.beginExchange ln frame .r250
  else s

/-- The exchange in flight on a line, where it is in a phase that has run out. -/
def State.exchangeOver (s : State) (ln : LineNo) (phase : ExchangePhase) : Option LineFrame :=
  match (s.line ln).exchange with
  | none => none
  | some x => if x.phase = phase ∧ x.ends ≤ s.micros then some x.frame else none

/-- R40: the DROP to address 0 of a FULL enrolment. -/
def State.dropAll (s : State) (ln : LineNo) : State :=
  (((s.onlineOf ln).foldl (State.makeMissing · .dropped) s).recompute ln).mapEnrol ln
    (fun e => { e with subState := some .calling })

/-- R39, R40, R138: the last character of a DROP ends its exchange: the operation stops on the condition found, or, after
the DROP to address 0, goes on to CALLING. -/
def State.endDrop (s : State) (ln : LineNo) : State :=
  match s.exchangeOver ln .frame with
  | some (.drop _) =>
    match (s.line ln).enrol.giveUp with
    | some g => (s.stopOperation ln g.condition).endExchange ln
    | none => (s.dropAll ln).endExchange ln
  | _ => s

/-- R41: the last character of a CALL: the arbitration window opens, 40 bit times at 250 kbit/s. -/
def State.openArbitration (s : State) (ln : LineNo) : State :=
  match s.exchangeOver ln .frame with
  | some .call =>
    let opened := s.mapEnrol ln (fun e => { e with subState := some .arbitrating })
    opened.setLine ln
      { opened.line ln with
        exchange := some { frame := .call, rate := .r250, phase := .arbitration, ends := s.micros + 160 } }
  | _ => s

/-- R41, R42: the end of the arbitration window: all ones completes the operation; any other value is captured, and an
address is offered for it, or the fixture is given up. -/
def State.endArbitration (s : State) (ln : LineNo) (samples : BitVec 40) : State :=
  match s.exchangeOver ln .arbitration with
  | some .call =>
    if samples = BitVec.allOnes 40 then (s.endOperation ln .complete).endExchange ln
    else
      match s.lowestAddress ln samples with
      | some a =>
        (s.mapEnrol ln (fun e =>
          { e with captured := some samples, offered := some a, attempt := some 1, subState := some .assigning })).endExchange ln
      | none =>
        (s.mapEnrol ln (fun e =>
          { e with captured := some samples, giveUp := some { address := 63, condition := .tableFull } })).endExchange ln
  | _ => s

/-- The ASSIGN exchange whose reply window is open on a line. -/
def State.openAssign (s : State) (ln : LineNo) : Option (Exchange × BitVec 40 × Nat) :=
  match (s.line ln).exchange with
  | none => none
  | some x =>
    match x.frame with
    | .assign uid a => if x.phase = .window then some (x, uid, a) else none
    | _ => none

/-- R43: the ASSIGN has failed: it is sent a second time, or the fixture is given up. -/
def State.capsFailed (s : State) (ln : LineNo) (address : Nat) : State :=
  (s.mapEnrol ln (fun e =>
    if e.attempt = some 1 then { e with attempt := some 2 }
    else { e with giveUp := some { address := address, condition := .enrolFailed } })).endExchange ln

/-- R44: the operation goes on calling after a binding. -/
def EnrolRecord.afterBinding (e : EnrolRecord) : EnrolRecord :=
  { e with bound := e.bound + 1, captured := none, offered := none, attempt := none, subState := some .calling }

/-- R44: a binding made by a line's operation. -/
def State.bindOn (s : State) (ln : LineNo) (n : SlotNo) (x : BitVec 40) (address : Nat) (c : Caps) (returned : Bool) :
    State :=
  (((s.bindInto n ln x address c returned).recompute ln).mapEnrol ln EnrolRecord.afterBinding).endExchange ln

/-- R45: a binding refused. -/
def State.refuseBinding (s : State) (ln : LineNo) (address : Nat) (condition : LineCondition) : State :=
  (s.mapEnrol ln (fun e => { e with giveUp := some { address := address, condition := condition } })).endExchange ln

/-- R44, R45: a good CAPS leads to a bind request. -/
def State.receiveCaps (s : State) (ln : LineNo) (x : BitVec 40) (address : Nat) (c : Caps) : State :=
  match s.bindAnswer ln x with
  | .returning n => s.bindOn ln n x address c true
  | .new n => s.bindOn ln n x address c false
  | .duplicate => s.refuseBinding ln address .duplicateId
  | .tableFull => s.refuseBinding ln address .tableFull

end Sys2Proof.Machine
end

