-- ==== Sys2Proof/Machine/LineCommands.lean ====
section
/-! DEFINITION. Machine/LineCommands.lean: the meanings of the rows of the Line Sequencers: SCHEDULER_PICK,
LINE_FRAME_END, REPLY_END, REPLY_WINDOW_EXPIRY, LATE_CHARACTERS, ENROL_FRAME_START, DROP_DONE, CALL_DONE,
ARBITRATION_END, ASSIGN_DONE, CAPS_RECEIVED, CAPS_WINDOW_EXPIRY and CAPS_FAILURE. -/

namespace Sys2Proof.Machine

/-- SCHEDULER_PICK (R144, R145). -/
def execSchedulerPick (ln : LineNo) (s : State) : Result := .next <| s.whenRunning fun s => s.pick ln

/-- ENROL_FRAME_START (R138, R141). -/
def execEnrolFrameStart (ln : LineNo) (s : State) : Result := .next <| s.whenRunning fun s => s.startEnrolFrame ln

/-- R138: the last character of a SET or POLL frame: the line goes to AWAITING and opens the reply window. -/
def State.endLineFrame (s : State) (ln : LineNo) : State :=
  match (s.line ln).exchange with
  | none => s
  | some x =>
    if x.frame.slotAddress.isSome = true ∧ x.phase = .frame ∧ x.ends ≤ s.micros then
      (s.setLine ln { s.line ln with seq := .awaiting }).openWindow ln x
    else s

/-- LINE_FRAME_END (R138). -/
def execLineFrameEnd (ln : LineNo) (s : State) : Result := .next <| s.whenRunning fun s => s.endLineFrame ln

/-- REPLY_END (R140). -/
def execReplyEnd (ln : LineNo) (reply : List RxChar) (s : State) : Result :=
  .next <| s.whenRunning fun s => s.endReply ln reply

/-- REPLY_WINDOW_EXPIRY (R139, R140). -/
def execReplyWindowExpiry (ln : LineNo) (s : State) : Result := .next <| s.whenRunning fun s => s.expireReply ln

/-- LATE_CHARACTERS (R141): characters after an exchange has ended are discarded, and restart the line's rest. Characters
before the first exchange after reset do the same (log entry 28). -/
def execLateCharacters (ln : LineNo) (s : State) : Result :=
  .next <| s.whenRunning fun s =>
    let r := s.line ln
    if r.exchange = none then s.setLine ln { r with restedAt := s.micros + restMicros r.restRate } else s

/-- DROP_DONE (R39, R40). -/
def execDropDone (ln : LineNo) (s : State) : Result := .next <| s.whenRunning fun s => s.endDrop ln

/-- CALL_DONE (R41). -/
def execCallDone (ln : LineNo) (s : State) : Result := .next <| s.whenRunning fun s => s.openArbitration ln

/-- ARBITRATION_END (R41, R42). -/
def execArbitrationEnd (ln : LineNo) (samples : BitVec 40) (s : State) : Result :=
  .next <| s.whenRunning fun s => s.endArbitration ln samples

/-- R43: the last character of an ASSIGN: the reply window opens. -/
def State.endAssign (s : State) (ln : LineNo) : State :=
  match (s.line ln).exchange with
  | none => s
  | some x =>
    match x.frame with
    | .assign _ _ => if x.phase = .frame ∧ x.ends ≤ s.micros then s.openWindow ln x else s
    | _ => s

/-- ASSIGN_DONE (R43). -/
def execAssignDone (ln : LineNo) (s : State) : Result := .next <| s.whenRunning fun s => s.endAssign ln

/-- CAPS_RECEIVED (R43, R44, R45): a good CAPS, complete before the window expires. -/
def execCapsReceived (ln : LineNo) (reply : List RxChar) (s : State) : Result :=
  .next <| s.whenRunning fun s =>
    match s.openAssign ln with
    | none => s
    | some (x, uid, a) =>
      match judgeCaps a reply with
      | none => s
      | some c => if s.micros ≤ x.ends then s.receiveCaps ln uid a c else s

/-- CAPS_WINDOW_EXPIRY (R43): the window expires without a good CAPS. -/
def execCapsWindowExpiry (ln : LineNo) (s : State) : Result :=
  .next <| s.whenRunning fun s =>
    match s.openAssign ln with
    | none => s
    | some (x, _, a) => if x.ends ≤ s.micros then s.capsFailed ln a else s

/-- CAPS_FAILURE (R43): a reply that ends before the window expires and fails the tests of a good CAPS. -/
def execCapsFailure (ln : LineNo) (reply : List RxChar) (s : State) : Result :=
  .next <| s.whenRunning fun s =>
    match s.openAssign ln with
    | none => s
    | some (x, _, a) =>
      match judgeCaps a reply with
      | some _ => s
      | none => if s.micros ≤ x.ends then s.capsFailed ln a else s

end Sys2Proof.Machine
end

