-- ==== Sys2Proof/Machine/Encode.lean ====
section
/-! DEFINITION. Machine/Encode.lean: the bytes of the frames the part sends on a control link (R159, section 12.1): the
answers and their data, and the notices, each field in the order its owning rule lists it. -/

namespace Sys2Proof.Machine

/-! ## Codes -/

/-- One byte. -/
def byteOf (n : Nat) : List Byte := [BitVec.ofNat 8 n]

/-- The on/off, yes/no row of R159: 1 for on and yes, 0 for off and no, which the row does not say (log entry 32). -/
def boolByte (b : Bool) : List Byte := byteOf (if b then 1 else 0)

/-- An item for which the manual states neither a code nor a width: the model gives it one byte, DESIGN CHOICE, whose value is
free (log entry 12). -/
def unstated (c : Config.UnstatedCode) : List Byte := [Config.unstatedCode c]

/-- A field that may be absent: a presence byte, and its full width, zeros when absent. -/
def optionalField {α : Type} (width : Nat) (bytes : α → List Byte) (x : Option α) : List Byte :=
  match x with
  | some v => byteOf 1 ++ bytes v
  | none => byteOf 0 ++ List.replicate width 0#8

/-- The status codes of section 12.1. -/
def Status.code : Status → Nat
  | .ok => 0
  | .clamped => 1
  | .busy => 2
  | .notPermitted => 3
  | .badSlot => 4
  | .badRequest => 5
  | .poolFull => 6
  | .queueFull => 7
  | .noClaim => 8
  | .tableFull => 9
  | .lineOff => 10
  | .safetyHold => 11

/-- The flags byte of an answer (section 12.1). -/
def AnswerFlags.code (f : AnswerFlags) : Nat :=
  (if f.requestOverrun then 1 else 0) + (if f.noticeOverflow then 2 else 0) + (if f.safetyActive then 4 else 0)

/-- The group row of R159. -/
def groupCode : Group → Nat
  | .aim => 0
  | .colour => 1
  | .level => 2

/-- The curve codes of R159. -/
def Curve.code : Curve → Nat
  | .linear => 0
  | .easeIn => 1
  | .easeOut => 2
  | .easeInOut => 3
  | .snap => 4
  | .snapEnd => 5

/-- The mode row of R159. -/
def Mode.code : Mode → Nat
  | .oneShot => 0
  | .loop => 1

/-- The rate code row of R159. -/
def Rate.code : Rate → Nat
  | .r250 => 0
  | .r500 => 1
  | .r1000 => 2
  | .r2000 => 3

/-- A role, numbered in the order R55 names them. -/
def Role.code : Role → Nat
  | .live => 0
  | .shadow => 1

/-- A standing, numbered in the order R74 names them. -/
def Standing.code : Standing → Nat
  | .owner => 0
  | .held => 1
  | .shadow => 2

/-- A slot state, numbered in the order R19 names them. -/
def SlotState.code : SlotState → Nat
  | .free => 0
  | .online => 1
  | .missing => 2

/-- A safety state, numbered in the order R18 names them. -/
def SafetyState.code : SafetyState → Nat
  | .clear => 0
  | .holding => 1
  | .latched => 2

/-- A cause of SAFETY_CHANGED, numbered in the order R155 and R156 name them. -/
def SafetyCause.code : SafetyCause → Nat
  | .asserted => 0
  | .released => 1
  | .cleared => 2

/-- A sequencer state, numbered in the order R135 names them. -/
def SeqState.code : SeqState → Nat
  | .off => 0
  | .idle => 1
  | .sending => 2
  | .awaiting => 3
  | .enrolling => 4

/-- An operation's place in R37's table. -/
def Operation.place : Operation → Nat
  | .none => 0
  | .full => 1
  | .join => 2
  | .joining => 3

/-- A sub-state, numbered in the order R37 names them. -/
def SubState.code : SubState → Nat
  | .dropping => 0
  | .calling => 1
  | .arbitrating => 2
  | .assigning => 3

/-- An outcome of an operation, numbered in the order R39 names them. -/
def EnrolOutcome.code : EnrolOutcome → Nat
  | .complete => 0
  | .stopped => 1
  | .abandoned => 2

/-- A cause of FIXTURE_GONE, numbered in the order R50 names them. -/
def GoneCause.code : GoneCause → Nat
  | .misses => 0
  | .dropped => 1
  | .lineOff => 2

/-- A cause of CLAIM_RESTORED, numbered in the order R72 names them. -/
def RestoreCause.code : RestoreCause → Nat
  | .release => 0
  | .silence => 1
  | .pair => 2

/-- A cause of PAIR_CHANGED, numbered in the order R86 names them. -/
def PairCause.code : PairCause → Nat
  | .give => 0
  | .failover => 1
  | .standbyLive => 2
  | .overrideOn => 3
  | .overrideOff => 4
  | .standbySilent => 5

/-- A fixture condition's place in R151's order. -/
def FixtureCondition.place : FixtureCondition → Nat
  | .motorStall => 0
  | .overTemperature => 1
  | .emitterFault => 2
  | .positionLost => 3
  | .fanFault => 4

/-- A line condition's place in R152's table. -/
def LineCondition.place : LineCondition → Nat
  | .enrolFailed => 0
  | .tableFull => 1
  | .duplicateId => 2
  | .wrongAddress => 3

/-! ## Composite fields -/

/-- The value row of R159, one for each component. -/
def valueBytes (v : Value) : List Byte := v.flatMap bytes16

/-- A show-clock reading. -/
def readingBytes (t : Reading) : List Byte := bytes32 t.toNat

/-- The condition set row of R159. -/
def ConditionSet.bytes (c : ConditionSet) : List Byte :=
  byteOf ((if c.motorStall then 1 else 0) + (if c.overTemperature then 2 else 0) + (if c.emitterFault then 4 else 0) +
    (if c.positionLost then 8 else 0) + (if c.fanFault then 16 else 0))

/-- The line condition set row of R159. -/
def LineConditionSet.bytes (c : LineConditionSet) : List Byte :=
  byteOf ((if c.enrolFailed then 1 else 0) + (if c.tableFull then 2 else 0) + (if c.duplicateId then 4 else 0) +
    (if c.wrongAddress then 8 else 0))

/-- The slot flag set row of R159. -/
def SlotFlags.bytes (f : SlotFlags) : List Byte :=
  byteOf ((if f.changed then 1 else 0) + (if f.urgent then 2 else 0) + (if f.lagging then 4 else 0) +
    (if f.gamut then 8 else 0))

/-- The group set row of R159. -/
def groupSetBytes (x : PerGroup Bool) : List Byte :=
  byteOf ((if x.aim then 1 else 0) + (if x.colour then 2 else 0) + (if x.level then 4 else 0))

/-- A matrix, row by row, each coefficient in two's complement (R159). -/
def matrixBytes (m : Matrix) : List Byte :=
  m.toList.flatMap fun r =>
    [r.c1, r.c2, r.c3].flatMap fun k => bytes16 (BitVec.ofInt 16 k).toNat

/-- The last-sent record of READ_SLOT: pan, tilt, five emitter levels, show time. The levels beyond those of the record,
which section 12.1 calls not meaningful, are free values (log entry 15). -/
def LastSent.bytes (x : LastSent) : List Byte :=
  bytes16 x.pan ++ bytes16 x.tilt ++
    (List.range 5).flatMap (fun k => bytes16 ((x.levels[k]?).getD (Config.unsentLevel k).toNat)) ++
    readingBytes x.time.reading

/-- The slot record of R19, in the order of its table, as READ_SLOT carries it (R34). -/
def slotRecordBytes (n : SlotNo) (x : Slot) : List Byte :=
  byteOf n.val ++ byteOf x.state.code ++
    optionalField 5 (fun f => bytes40 f.uniqueId.toNat) x.fixture ++
    optionalField 1 (fun f => byteOf f.line.val) x.fixture ++
    optionalField 1 (fun f => byteOf f.address) x.fixture ++
    optionalField 2 (fun f => bytes16 f.typeCode.toNat) x.fixture ++
    optionalField 1 (fun f => byteOf ((f.typeIndex.map Fin.val).getD 255)) x.fixture ++
    optionalField 1 (fun f => byteOf f.emitters) x.fixture ++
    optionalField 1 (fun f => byteOf f.maxRate.code) x.fixture ++
    optionalField 2 (fun f => bytes16 f.panSpeed) x.fixture ++
    optionalField 2 (fun f => bytes16 f.tiltSpeed) x.fixture ++
    optionalField 8 (fun f => bytes16 f.refPan ++ bytes16 f.refTilt ++ readingBytes f.refTime.reading) x.fixture ++
    optionalField 18 LastSent.bytes (x.fixture.bind (·.lastSent)) ++
    valueBytes x.parked.aim ++ valueBytes x.parked.colour ++ valueBytes x.parked.level ++
    ((x.fixture.map (·.conditions)).getD ConditionSet.empty).bytes ++
    byteOf ((x.fixture.map (·.misses)).getD 0) ++ x.flags.bytes

/-- What READ_SLOT adds for a group (R34). An owner link of none is coded as an absent field: a presence byte 0 and a byte of
zero (log entry 15). -/
def GroupView.bytes (v : GroupView) : List Byte :=
  optionalField 1 (fun l => byteOf l.index.val) v.ownerLink ++ valueBytes v.present ++ boolByte v.fading

/-- A running step's summary (R74). -/
def runningBytes (r : RunningStep) (p : Option Phase) : List Byte :=
  valueBytes r.step.target ++ bytes32 r.step.duration ++ bytes32 r.step.dwell ++
    byteOf (r.adjusted.code + if r.step.tie then 128 else 0) ++ valueBytes r.startValue ++ readingBytes r.startTime ++
    unstated (if p = some .moving then .moving else .dwelling)

/-- One claim of READ_CLAIMS (R74). The low mark, for which R159 has no row, takes one byte (log entry 34). -/
def ClaimView.bytes (g : Group) (v : ClaimView) : List Byte :=
  bytes16 v.claim.number ++ byteOf v.claim.link.index.val ++ byteOf v.claim.link.tier ++ byteOf v.claim.role.code ++
    byteOf v.standing.code ++ byteOf v.claim.mode.code ++ readingBytes v.claim.taken ++ valueBytes v.claim.rest ++
    optionalField (4 * g.width + 14) (fun r => runningBytes r v.phase) v.claim.running ++
    byteOf v.claim.queue.length ++ byteOf v.claim.lowMark ++ boolByte v.claim.armed

/-- A crossfade record, as READ_CLAIMS carries it (R74). -/
def Crossfade.bytes (x : Crossfade) : List Byte :=
  valueBytes x.fromValue ++ readingBytes x.start.reading ++ bytes32 x.duration

/-- The line record, as READ_LINE carries it (R149). join-suspended, set or clear, is coded by the on/off row of R159
(log entry 33). -/
def lineRecordBytes (r : LineRec) (onlineCount missingCount : Nat) : List Byte :=
  boolByte r.enabled ++ boolByte r.disablePending ++ byteOf r.requested.code ++ byteOf r.effective.code ++
    bytes16 r.replyWindow ++ bytes16 r.refreshPeriod ++ bytes16 r.joinPeriod ++ byteOf r.seq.code ++
    unstated (.operation r.enrol.operation.place) ++ optionalField 1 (fun x => byteOf x.code) r.enrol.subState ++
    byteOf r.enrol.bound ++ boolByte r.joinSuspended ++ r.conditions.bytes ++ byteOf onlineCount ++
    byteOf missingCount ++ optionalField 4 (fun x => readingBytes x.reading) r.lastCall

/-! ## Answer data and notice payloads -/

/-- The data of an answer. The entry number of SET_TYPE's answer, for which R159 has no row, takes one byte (log entry
37). -/
def AnswerData.bytes : AnswerData → List Byte
  | .none => []
  | .entry k => byteOf k
  | .keep l limit fade waiting => byteOf l.index.val ++ bytes16 limit ++ bytes32 fade ++ byteOf waiting
  | .part clock safety pair freeClaims freeSteps =>
    bytes16 Config.partCode ++ byteOf Config.revision ++ readingBytes clock ++ byteOf safety.code ++
      byteOf pair.activeLink.index.val ++ boolByte pair.override ++ boolByte pair.askPending ++
      bytes32 pair.failoverFade ++ bytes16 freeClaims ++ bytes16 freeSteps
  | .slot n record views =>
    slotRecordBytes n record ++ views.aim.bytes ++ views.colour.bytes ++ views.level.bytes
  | .claims g views fade =>
    byteOf views.length ++ views.flatMap (ClaimView.bytes g) ++ optionalField (2 * g.width + 8) Crossfade.bytes fade
  | .line record onlineCount missingCount => lineRecordBytes record onlineCount missingCount
  | .type inUse code matrix users =>
    boolByte inUse ++ bytes16 code.toNat ++ matrixBytes matrix ++ byteOf users

/-- The code of a notice's kind (section 12.1). -/
def Notice.code : Notice → Nat
  | .queueLow .. => 0x40
  | .claimDisplaced .. => 0x41
  | .claimRestored .. => 0x42
  | .fixtureJoined .. => 0x43
  | .fixtureGone .. => 0x44
  | .fixtureCondition .. => 0x45
  | .lineCondition .. => 0x46
  | .enrolDone .. => 0x47
  | .pairChanged .. => 0x48
  | .handoverAsked .. => 0x49
  | .handoverDeclined .. => 0x4A
  | .safetyChanged .. => 0x4B

/-- The payload of a notice. -/
def Notice.payload : Notice → List Byte
  | .queueLow n g count => byteOf n.val ++ byteOf (groupCode g) ++ byteOf count
  | .claimDisplaced g l first count => byteOf (groupCode g) ++ byteOf l.index.val ++ byteOf first ++ byteOf count
  | .claimRestored cause groups first count =>
    byteOf cause.code ++ groupSetBytes groups ++ byteOf first ++ bytes16 count
  | .fixtureJoined n ln address code returned =>
    byteOf n.val ++ byteOf ln.val ++ byteOf address ++ bytes16 code.toNat ++ boolByte returned
  | .fixtureGone n ln address cause => byteOf n.val ++ byteOf ln.val ++ byteOf address ++ byteOf cause.code
  | .fixtureCondition n c entered =>
    byteOf n.val ++ unstated (.fixtureCondition c.place) ++ unstated (if entered then .entered else .left)
  | .lineCondition ln c entered =>
    byteOf ln.val ++ unstated (.lineCondition c.place) ++ unstated (if entered then .entered else .left)
  | .enrolDone ln bound outcome => byteOf ln.val ++ byteOf bound ++ byteOf outcome.code
  | .pairChanged cause active override ask fade =>
    byteOf cause.code ++ byteOf active.index.val ++ boolByte override ++ boolByte ask ++ bytes32 fade
  | .handoverAsked l => byteOf l.index.val
  | .handoverDeclined l => byteOf l.index.val
  | .safetyChanged state cause fade => byteOf state.code ++ byteOf cause.code ++ bytes32 fade

/-! ## Frames -/

/-- Section 1.1 of Control Links: a frame from its tag, kind and payload: its length byte before, its CRC-16 after. -/
def controlFrame (tag kind : Byte) (payload : List Byte) : List Byte :=
  let body := BitVec.ofNat 8 (payload.length + 2) :: tag :: kind :: payload
  body ++ bytes16 (crc16 body).toNat

/-- The frame of an answer: status, flags, data. -/
def Answer.bytes (a : Answer) : List Byte :=
  controlFrame a.tag a.kind (byteOf a.status.code ++ byteOf a.flags.code ++ a.data.bytes)

/-- The frame of a notice: its tag is 0 (R8). -/
def Notice.bytes (n : Notice) : List Byte := controlFrame 0#8 (BitVec.ofNat 8 n.code) n.payload

end Sys2Proof.Machine
end

