-- ==== Sys2Proof/Machine/Pair.lean ====
section
/-! DEFINITION. Machine/Pair.lean: the Pair Controller (The Console Pair): role changes (R70, R77), the swap (R85), the
override flag (R79, R80), and what a console link's change of state does (R81). -/

namespace Sys2Proof.Machine

/-- R86: PAIR_CHANGED to the two console links, with the pair record after the event. -/
def State.raisePairChanged (s : State) (cause : PairCause) (fade : Nat) : State :=
  s.raiseEach [.cl0, .cl1] (.pairChanged cause s.pair.activeLink s.pair.override s.pair.askPending fade)

/-- The slot groups on which a console link holds a claim, each once. -/
def State.consoleGroups (s : State) : List (SlotNo × Group) :=
  ((s.claims.filter (fun c => decide (c.link.tier = 2))).map (fun c => (c.slot, c.group))).eraseDups

/-- R77: the claims with the roles the pair record gives their links. -/
def State.withRoles (s : State) (p : Pair) : State :=
  { s with pair := p, claims := s.claims.map (fun c => { c with role := p.roleFor c.link }) }

/-- R70: one slot group at a role change from `old`: a passive change where its owner is another claim. -/
def State.roleChangeOn (old : State) (fade : Nat) (acc : State × List Gain) (x : SlotNo × Group) : State × List Gain :=
  if old.ownerNumber x.1 x.2 = acc.1.ownerNumber x.1 x.2 then acc
  else
    ((acc.1.setFade x.1 x.2 (some (old.passiveRecord x.1 x.2 fade))).setChanged x.1,
      acc.2 ++ ((acc.1.owner x.1 x.2).map (fun d => ({ link := d.link, slot := x.1, group := x.2 } : Gain))).toList)

/-- R70, R77: the pair record becomes `p`, the console claims take the roles it gives them, and each group whose owner
differs has one passive change with the fade; CLAIM_RESTORED, cause PAIR, to each link that gained. -/
def State.changeRoles (s : State) (p : Pair) (fade : Nat) : State :=
  let done := s.consoleGroups.foldl (s.roleChangeOn fade) (s.withRoles p, [])
  done.1.raiseRestored .pair done.2

/-- R85: the swap: the roles are exchanged, override and the ask are cleared, the claims change role as one, and
PAIR_CHANGED is raised. -/
def State.swap (s : State) (fade : Nat) (cause : PairCause) : State :=
  (s.changeRoles { s.pair with active := s.pair.active.other, override := false, askPending := false }
    fade).raisePairChanged cause fade

/-- R79, R80: the override flag changes, with its role change and its PAIR_CHANGED. -/
def State.changeOverride (s : State) (on : Bool) (fade : Nat) (cause : PairCause) : State :=
  (s.changeRoles { s.pair with override := on } fade).raisePairChanged cause fade

/-- R81, last row: the STANDBY link has become SILENT: the ask is cleared, and override with the failover fade. -/
def State.standbySilent (s : State) : State :=
  let p := s.pair
  let cleared := { s with pair := { p with askPending := false } }
  if p.override then cleared.changeOverride false p.failoverFade .standbySilent
  else if p.askPending then cleared.raisePairChanged .standbySilent 0
  else s

/-- R14, R81: a console link has become LIVE. -/
def State.consoleLive (s : State) (l : Link) : State :=
  if l = s.pair.standbyLink ∧ (s.link s.pair.activeLink).state ≠ .live then s.swap s.pair.failoverFade .standbyLive
  else s

/-- R14, R81: a console link has become SILENT. -/
def State.consoleSilent (s : State) (l : Link) : State :=
  if l = s.pair.activeLink then
    if (s.link s.pair.standbyLink).state = .live then s.swap s.pair.failoverFade .failover else s
  else s.standbySilent

end Sys2Proof.Machine
end

