-- ==== Sys2Proof/Machine/Links.lean ====
section
/-! DEFINITION. Machine/Links.lean: the Link Interface (Control Links): assembling and checking a frame (R1, R2), the
request queue and handing on (R3, R4), link states and silence (R11, R13 to R15), and the transmitter (R10). -/

namespace Sys2Proof.Machine

/-! ## Assembling a frame -/

/-- R1: the assembler takes a character: the first 256 are stored, all are counted, a bad stop bit marks the frame. -/
def Assembler.take (a : Assembler) (c : RxChar) : Assembler :=
  { stored := if a.counted < 256 then a.stored ++ [c.byte] else a.stored
    counted := a.counted + 1
    broken := a.broken || !c.stopOk }

/-- R1: the assembler before the first character of a frame. -/
def Assembler.empty : Assembler := { stored := [], counted := 0, broken := false }

/-- R2: the good frame that the assembled characters make, or none where the frame is discarded. -/
def Assembler.goodFrame (a : Assembler) : Option Frame :=
  match a.stored with
  | length :: tag :: kind :: rest =>
    if a.broken = false ∧ a.counted ≤ 256 ∧ 2 ≤ length.toNat ∧ length.toNat ≤ 250 ∧ a.counted = length.toNat + 3 ∧
        bytes16 (crc16 (a.stored.take (length.toNat + 1))).toNat = a.stored.drop (length.toNat + 1) then
      some { tag := tag, kind := kind, payload := rest.take (length.toNat - 2) }
    else none
  | _ => none

/-! ## The request queue -/

/-- R3: a good frame joins the tail of a queue of fewer than four, or is discarded with REQUEST_OVERRUN set. -/
def LinkRec.enqueue (r : LinkRec) (f : Frame) : LinkRec :=
  if r.requests.length < Config.requestQueueSize then { r with requests := r.requests ++ [f] }
  else { r with requestOverrun := true }

/-- R4: with the answer buffer empty and nothing in hand, the oldest frame of the queue is handed on. -/
def LinkRec.handOn (r : LinkRec) : LinkRec :=
  match r.answer, r.inHand, r.requests with
  | none, none, f :: rest => { r with inHand := some f, requests := rest }
  | _, _, _ => r

/-- R11: a good frame makes the link LIVE and restarts its silence timer. -/
def State.becomeLive (s : State) (l : Link) : State :=
  let was := (s.link l).state
  let s1 := s.setLink l { s.link l with state := .live, lastGood := s.now }
  if was ≠ .live ∧ l.tier = 2 then s1.consoleLive l else s1

/-- R2, R3, R4, R11: a good frame arrives. -/
def State.arrive (s : State) (l : Link) (f : Frame) : State :=
  let s1 := s.becomeLive l
  s1.setLink l ((s1.link l).enqueue f).handOn

/-! ## Silence -/

/-- R15: what silence takes from the link itself. An answer or notice being sent is finished (R10). -/
def LinkRec.flush (r : LinkRec) : LinkRec :=
  { r with
    state := .silent
    requests := []
    inHand := none
    notices := []
    requestOverrun := false
    noticeOverflow := false
    answer := match r.sending with
      | some x => if x.isAnswer then r.answer else none
      | none => none }

/-- R11: whether a LIVE link's silence timer has run out under a limit. -/
def State.timedOut (s : State) (l : Link) (limit : Nat) : Bool :=
  decide ((s.link l).state = .live) && decide (limit ≤ elapsed (s.link l).lastGood s.now)

/-- R13, R14, R15: a link becomes SILENT. -/
def State.silence (s : State) (l : Link) : State :=
  let s1 := s.setLink l (s.link l).flush
  if l.tier = 2 then s1.consoleSilent l
  else s1.releaseClaims (s1.claims.filter (fun c => decide (c.link = l))) (s1.link l).lossFade .silence

/-! ## The transmitter -/

/-- R10: a frame of n bytes occupies the line for 10 n µs. -/
def sendingOf (isAnswer : Bool) (bytes : List Byte) (start : Nat) : Sending :=
  { isAnswer := isAnswer, bytes := bytes, ends := start + 10 * bytes.length }

/-- R9, R10: a transmitter that is free begins the answer of the answer buffer, or else the oldest notice; a notice
queue that becomes empty clears NOTICE_OVERFLOW. A SILENT link begins nothing. -/
def LinkRec.beginFrame (r : LinkRec) (micros : Nat) : LinkRec :=
  if r.state ≠ .silent ∧ r.sending = none ∧ r.txReady ≤ micros then
    match r.answer, r.notices with
    | some a, _ => { r with sending := some (sendingOf true a.bytes micros) }
    | none, n :: rest =>
      { r with
        notices := rest
        noticeOverflow := r.noticeOverflow && !rest.isEmpty
        sending := some (sendingOf false n.bytes micros) }
    | none, [] => r
  else r

/-- R4, R10: the last byte has been sent: the answer buffer of an answer empties, the next request may be handed on,
and the line stays idle for 50 µs. -/
def LinkRec.endFrame (r : LinkRec) (micros : Nat) : LinkRec :=
  match r.sending with
  | none => r
  | some x =>
    if x.ends ≤ micros then
      ({ r with
          sending := none
          txReady := micros + 50
          answer := if x.isAnswer then none else r.answer }).handOn
    else r

end Sys2Proof.Machine
end

