-- ==== Sys2Proof/Machine/LinkCommands.lean ====
section
/-! DEFINITION. Machine/LinkCommands.lean: the meanings of the rows of the Link Interface: FRAME_ARRIVAL,
SILENCE_TIMEOUT, TRANSMIT_START, TRANSMIT_DONE, UNKNOWN_KIND, SET_LINK and KEEP. -/

namespace Sys2Proof.Machine

/-- FRAME_ARRIVAL (R1, R2, R3, R4, R11): the assembled frame is checked; a bad one is discarded, and a good one has the
effects of its arrival. -/
def execFrameArrival (l : Link) (chars : List RxChar) (s : State) : Result :=
  .next <| s.whenRunning fun s =>
    let assembled := chars.foldl Assembler.take (s.link l).assembler
    let s1 := s.setLink l { s.link l with assembler := Assembler.empty }
    match assembled.goodFrame with
    | none => s1
    | some f => s1.arrive l f

/-- SILENCE_TIMEOUT (R11): a LIVE link's silence timer runs out. -/
def execSilenceTimeout (l : Link) (s : State) : Result :=
  .next <| s.whenRunning fun s => if s.timedOut l (s.link l).silenceLimit then s.silence l else s

/-- TRANSMIT_START (R10). -/
def execTransmitStart (l : Link) (s : State) : Result :=
  .next <| s.whenRunning fun s => s.setLink l ((s.link l).beginFrame s.micros)

/-- TRANSMIT_DONE (R10, R4). -/
def execTransmitDone (l : Link) (s : State) : Result :=
  .next <| s.whenRunning fun s => s.setLink l ((s.link l).endFrame s.micros)

/-- UNKNOWN_KIND (R4, R5): a good frame of unknown kind, or a malformed request, is answered BAD_REQUEST. -/
def execUnknownKind (l : Link) (s : State) : Result :=
  .next <| s.whenRunning fun s =>
    match (s.link l).inHand with
    | none => s
    | some f =>
      match f.request with
      | none => s.refuse l f .badRequest
      | some _ => s

/-- R12: the settings of a SET_LINK; the loss fade of a console link is ignored. -/
def State.storeLinkSettings (s : State) (target : Link) (limit fade : Nat) : State :=
  s.setLink target
    { s.link target with
      silenceLimit := clampBetween 100 5000 limit
      lossFade := if target.tier = 2 then (s.link target).lossFade else clampTime fade }

/-- R12: a SET_LINK that is permitted. A shortened limit may silence another link at once, and never the sender. -/
def State.takeSetLink (s : State) (l target : Link) (limit fade : Nat) (f : Frame) : State :=
  let stored := s.storeLinkSettings target limit fade
  let settled :=
    if target ≠ l ∧ stored.timedOut target (clampBetween 100 5000 limit) = true then stored.silence target else stored
  settled.answer l f (takenStatus (decide (clampBetween 100 5000 limit ≠ limit) || outOfRange fade)) .none

/-- SET_LINK (R12, R16). -/
def execSetLink (l : Link) (s : State) : Result :=
  .next <| s.whenRunning fun s => s.takeInHand l fun f r =>
    match r with
    | .setLink target limit fade => some (s.withPermission l f (s.isActive l) (s.takeSetLink l target limit fade f))
    | _ => none

/-- KEEP (R17). -/
def execKeep (l : Link) (s : State) : Result :=
  .next <| s.whenRunning fun s => s.takeInHand l fun f r =>
    match r with
    | .keep =>
      some (s.answer l f .ok (.keep l (s.link l).silenceLimit (s.link l).lossFade (s.link l).notices.length))
    | _ => none

end Sys2Proof.Machine
end

