-- ==== Sys2Proof/Machine/PairCommands.lean ====
section
/-! DEFINITION. Machine/PairCommands.lean: the meanings of the rows of the Pair Controller and of SAFE_CLEAR:
HANDOVER_ASK, HANDOVER_DECLINE, HANDOVER_GIVE, OVERRIDE_ON, OVERRIDE_OFF, SET_PAIR and SAFE_CLEAR. -/

namespace Sys2Proof.Machine

/-- R82: a HANDOVER_ASK that is permitted. -/
def State.takeAsk (s : State) (l : Link) (f : Frame) : State :=
  if s.pair.askPending then s.refuse l f .busy
  else
    (({ s with pair := { s.pair with askPending := true } }).raiseTo s.pair.activeLink (.handoverAsked l)).answer l f
      .ok .none

/-- HANDOVER_ASK (R82, R88). -/
def execHandoverAsk (l : Link) (s : State) : Result :=
  .next <| s.whenRunning fun s => s.takeInHand l fun f r =>
    match r with
    | .handoverAsk => some (s.withPermission l f (s.isStandby l) (s.takeAsk l f))
    | _ => none

/-- R83: a HANDOVER_DECLINE that is permitted. -/
def State.takeDecline (s : State) (l : Link) (f : Frame) : State :=
  let declined :=
    if s.pair.askPending then
      ({ s with pair := { s.pair with askPending := false } }).raiseTo s.pair.standbyLink (.handoverDeclined l)
    else s
  declined.answer l f .ok .none

/-- HANDOVER_DECLINE (R83, R88). -/
def execHandoverDecline (l : Link) (s : State) : Result :=
  .next <| s.whenRunning fun s => s.takeInHand l fun f r =>
    match r with
    | .handoverDecline => some (s.withPermission l f (s.isActive l) (s.takeDecline l f))
    | _ => none

/-- HANDOVER_GIVE (R84, R88): the answer is placed after the swap's effects. -/
def execHandoverGive (l : Link) (s : State) : Result :=
  .next <| s.whenRunning fun s => s.takeInHand l fun f r =>
    match r with
    | .handoverGive fade =>
      some (s.withPermission l f (s.mayGive l)
        ((s.swap (clampTime fade) .give).answer l f (takenStatus (outOfRange fade)) .none))
    | _ => none

/-- R79: an OVERRIDE that is permitted; a setting that equals the flag changes nothing. -/
def State.takeOverride (s : State) (l : Link) (on : Bool) (fade : Nat) (f : Frame) : State :=
  let changed :=
    if s.pair.override = on then s
    else s.changeOverride on (clampTime fade) (if on then .overrideOn else .overrideOff)
  changed.answer l f (takenStatus (outOfRange fade)) .none

/-- OVERRIDE_ON (R79, R88). -/
def execOverrideOn (l : Link) (s : State) : Result :=
  .next <| s.whenRunning fun s => s.takeInHand l fun f r =>
    match r with
    | .override true fade => some (s.withPermission l f (s.isStandby l) (s.takeOverride l true fade f))
    | _ => none

/-- OVERRIDE_OFF (R79, R80, R88). -/
def execOverrideOff (l : Link) (s : State) : Result :=
  .next <| s.whenRunning fun s => s.takeInHand l fun f r =>
    match r with
    | .override false fade => some (s.withPermission l f (s.isStandby l) (s.takeOverride l false fade f))
    | _ => none

/-- SET_PAIR (R87, R16). -/
def execSetPair (l : Link) (s : State) : Result :=
  .next <| s.whenRunning fun s => s.takeInHand l fun f r =>
    match r with
    | .setPair fade =>
      some (s.withPermission l f (s.isActive l)
        (({ s with pair := { s.pair with failoverFade := clampTime fade } }).answer l f
          (takenStatus (outOfRange fade)) .none))
    | _ => none

/-- R156: a SAFE_CLEAR that is permitted, by the safety state. -/
def State.takeSafeClear (s : State) (l : Link) (fade : Nat) (f : Frame) : State :=
  match s.safety with
  | .holding => s.refuse l f .safetyHold
  | .clear => s.answer l f (takenStatus (outOfRange fade)) .none
  | .latched => (s.clearSafety (clampTime fade)).answer l f (takenStatus (outOfRange fade)) .none

/-- SAFE_CLEAR (R156, R88). -/
def execSafeClear (l : Link) (s : State) : Result :=
  .next <| s.whenRunning fun s => s.takeInHand l fun f r =>
    match r with
    | .safeClear fade => some (s.withPermission l f (s.isActive l) (s.takeSafeClear l fade f))
    | _ => none

end Sys2Proof.Machine
end

