-- ==== Sys2Proof/Machine/QueryCommands.lean ====
section
/-! DEFINITION. Machine/QueryCommands.lean: the meanings of the rows that read: READ_SLOT, READ_CLAIMS, READ_LINE,
READ_TYPE and READ_PART. -/

namespace Sys2Proof.Machine

/-- R34: what READ_SLOT adds for a group. -/
def State.groupView (s : State) (n : SlotNo) (g : Group) : GroupView :=
  { ownerLink := (s.owner n g).map (·.link), present := s.present n g, fading := (s.runningFade n g).isSome }

/-- R34: a READ_SLOT of a slot that exists: an evaluation of its three groups. -/
def State.takeReadSlot (s : State) (l : Link) (n : SlotNo) (f : Frame) : State :=
  let evaluated := s.evaluatedAll n
  evaluated.answer l f .ok (.slot n (evaluated.slot n) (PerGroup.make (s.groupView n)))

/-- READ_SLOT (R34). -/
def execReadSlot (l : Link) (s : State) : Result :=
  .next <| s.whenRunning fun s => s.takeInHand l fun f r =>
    match r with
    | .readSlot k =>
      match slotOfNumber k with
      | none => some (s.refuse l f .badSlot)
      | some n => some (s.takeReadSlot l n f)
    | _ => none

/-- R74: what READ_CLAIMS gives for a claim. -/
def State.claimView (s : State) (c : Claim) : ClaimView :=
  { claim := c, standing := s.standing c, phase := c.running.map (fun r => r.phase s.now) }

/-- R74: a READ_CLAIMS of a slot that exists: an evaluation of the group. -/
def State.takeReadClaims (s : State) (l : Link) (n : SlotNo) (g : Group) (f : Frame) : State :=
  (s.evaluated n g).answer l f .ok (.claims g ((s.reportedStack n g).map s.claimView) (s.runningFade n g))

/-- READ_CLAIMS (R74). -/
def execReadClaims (l : Link) (s : State) : Result :=
  .next <| s.whenRunning fun s => s.takeInHand l fun f r =>
    match r with
    | .readClaims k g =>
      match slotOfNumber k with
      | none => some (s.refuse l f .badSlot)
      | some n => some (s.takeReadClaims l n g f)
    | _ => none

/-- R149: a READ_LINE: its data is formed, WRONG_ADDRESS is then removed, and its notice follows the answer (R10). -/
def State.takeReadLine (s : State) (l : Link) (ln : LineNo) (f : Frame) : State :=
  (s.putCondition ln .wrongAddress false).answer l f .ok
    (.line (s.line ln) (s.onlineOf ln).length (s.missingOf ln).length)

/-- READ_LINE (R149). -/
def execReadLine (l : Link) (s : State) : Result :=
  .next <| s.whenRunning fun s => s.takeInHand l fun f r =>
    match r with
    | .readLine ln => some (s.takeReadLine l ln f)
    | _ => none

/-- R31: the data of a READ_TYPE: an unused entry reads as code 0 and the default matrix. -/
def State.typeData (s : State) (k : Fin 16) : AnswerData :=
  match s.typeEntry k with
  | some e => .type true e.code e.matrix (s.typeUsers k)
  | none => .type false 0 defaultMatrix (s.typeUsers k)

/-- READ_TYPE (R31). -/
def execReadType (l : Link) (s : State) : Result :=
  .next <| s.whenRunning fun s => s.takeInHand l fun f r =>
    match r with
    | .readType k => some (s.answer l f .ok (s.typeData k))
    | _ => none

/-- READ_PART (R18). -/
def execReadPart (l : Link) (s : State) : Result :=
  .next <| s.whenRunning fun s => s.takeInHand l fun f r =>
    match r with
    | .readPart => some (s.answer l f .ok (.part s.now s.safety s.pair s.freeClaims s.freeSteps))
    | _ => none

end Sys2Proof.Machine
end

