-- ==== Sys2Proof/Machine/SetupCommands.lean ====
section
/-! DEFINITION. Machine/SetupCommands.lean: the meanings of the rows that set up lines, types and slots: SET_LINE,
ENROL_LINE_FULL, ENROL_LINE_JOIN, SET_TYPE and FORGET. -/

namespace Sys2Proof.Machine

/-- R136: whether a SET_LINE brings a time into its range. -/
def LineSettings.clamped (x : LineSettings) : Bool :=
  decide (clampBetween 100 2000 x.replyWindow ≠ x.replyWindow) ||
    decide (clampBetween 100 5000 x.refreshPeriod ≠ x.refreshPeriod) ||
    decide (clampBetween 250 10000 x.joinPeriod ≠ x.joinPeriod)

/-- R136, R147, R148: a SET_LINE that is permitted: the settings, the effective rate, and the enabled setting. -/
def State.takeSetLine (s : State) (l : Link) (x : LineSettings) (f : Frame) : State :=
  let stored :=
    s.setLine x.line ((s.line x.line).withSettings x.enabled x.rate x.replyWindow x.refreshPeriod x.joinPeriod)
  let rated := stored.recompute x.line
  (if x.enabled then rated.enable x.line else rated.disable x.line).answer l f (takenStatus x.clamped) .none

/-- SET_LINE (R136, R16). -/
def execSetLine (l : Link) (s : State) : Result :=
  .next <| s.whenRunning fun s => s.takeInHand l fun f r =>
    match r with
    | .setLine x => some (s.withPermission l f (s.isActive l) (s.takeSetLine l x f))
    | _ => none

/-- R38: the effects of an ENROL_LINE taken: join-suspended and the enrolment conditions clear, and the operation begins;
an IDLE line becomes ENROLLING at the taking, one with an exchange in flight at its end. -/
def State.beginEnrolment (s : State) (ln : LineNo) (operation : Operation) (subState : SubState) : State :=
  let cleared :=
    ((s.putCondition ln .enrolFailed false).putCondition ln .tableFull false).putCondition ln .duplicateId false
  let r := cleared.line ln
  cleared.setLine ln
    { r with
      joinSuspended := false
      enrol := EnrolRecord.start operation subState
      seq := if r.seq = .idle then .enrolling else r.seq }

/-- R38: the two checks of an ENROL_LINE that is permitted, and its taking. -/
def State.takeEnrol (s : State) (l : Link) (ln : LineNo) (operation : Operation) (subState : SubState) (f : Frame) :
    State :=
  if (s.line ln).seq = .off ∨ (s.line ln).disablePending = true then s.refuse l f .lineOff
  else if (s.line ln).enrol.operation ≠ .none then s.refuse l f .busy
  else (s.beginEnrolment ln operation subState).answer l f .ok .none

/-- ENROL_LINE_FULL (R38, R16). -/
def execEnrolLineFull (l : Link) (s : State) : Result :=
  .next <| s.whenRunning fun s => s.takeInHand l fun f r =>
    match r with
    | .enrolLine ln true => some (s.withPermission l f (s.isActive l) (s.takeEnrol l ln .full .dropping f))
    | _ => none

/-- ENROL_LINE_JOIN (R38, R16). -/
def execEnrolLineJoin (l : Link) (s : State) : Result :=
  .next <| s.whenRunning fun s => s.takeInHand l fun f r =>
    match r with
    | .enrolLine ln false => some (s.withPermission l f (s.isActive l) (s.takeEnrol l ln .join .calling f))
    | _ => none

/-- R29, R30: a SET_TYPE that is permitted. -/
def State.takeSetType (s : State) (l : Link) (code : BitVec 16) (matrix : Matrix) (f : Frame) : State :=
  match s.entryOf code with
  | some k => (s.writeType k code matrix).answer l f .ok (.entry k.val)
  | none =>
    match s.unusedEntry with
    | some k => (s.writeType k code matrix).answer l f .ok (.entry k.val)
    | none => s.refuse l f .tableFull

/-- SET_TYPE (R29, R16). -/
def execSetType (l : Link) (s : State) : Result :=
  .next <| s.whenRunning fun s => s.takeInHand l fun f r =>
    match r with
    | .setType code matrix => some (s.withPermission l f (s.isActive l) (s.takeSetType l code matrix f))
    | _ => none

/-- R32: a FORGET of slots that exist, taken whole or refused whole. -/
def State.takeForget (s : State) (l : Link) (slots : List SlotNo) (f : Frame) : State :=
  if slots.any (fun n => decide ((s.slot n).state = .online)) then s.refuse l f .busy
  else (slots.foldl State.forgetSlot s).answer l f .ok .none

/-- FORGET (R32, R16): the slot stage comes before the permission stage. -/
def execForget (l : Link) (s : State) : Result :=
  .next <| s.whenRunning fun s => s.takeInHand l fun f r =>
    match r with
    | .forget set =>
      some (s.withSlots l f set fun slots => s.withPermission l f (s.isActive l) (s.takeForget l slots f))
    | _ => none

end Sys2Proof.Machine
end

