-- ==== Sys2Proof/Machine/Dispatch.lean ====
section
/-! DEFINITION. Machine/Dispatch.lean: exec, the effect of a command on everything but the queue: one arm per row of
spec/opcode_table.json, each one direct call of that row's meaning. -/

namespace Sys2Proof.Machine

def exec (i : Instr) (s : State) : Host.Outcome State Fault Refusal :=
  match i with
  | .powerOnReset cause => Sys2Proof.Machine.execPowerOnReset cause s
  | .leaveReset => Sys2Proof.Machine.execLeaveReset s
  | .frameArrival link chars => Sys2Proof.Machine.execFrameArrival link chars s
  | .silenceTimeout link => Sys2Proof.Machine.execSilenceTimeout link s
  | .transmitStart link => Sys2Proof.Machine.execTransmitStart link s
  | .transmitDone link => Sys2Proof.Machine.execTransmitDone link s
  | .unknownKind link => Sys2Proof.Machine.execUnknownKind link s
  | .seize link => Sys2Proof.Machine.execSeize link s
  | .release link => Sys2Proof.Machine.execRelease link s
  | .stepReplace link => Sys2Proof.Machine.execStepReplace link s
  | .stepAppend link => Sys2Proof.Machine.execStepAppend link s
  | .halt link => Sys2Proof.Machine.execHalt link s
  | .setMode link => Sys2Proof.Machine.execSetMode link s
  | .stepExpiry => Sys2Proof.Machine.execStepExpiry s
  | .handoverAsk link => Sys2Proof.Machine.execHandoverAsk link s
  | .handoverDecline link => Sys2Proof.Machine.execHandoverDecline link s
  | .handoverGive link => Sys2Proof.Machine.execHandoverGive link s
  | .overrideOn link => Sys2Proof.Machine.execOverrideOn link s
  | .overrideOff link => Sys2Proof.Machine.execOverrideOff link s
  | .setPair link => Sys2Proof.Machine.execSetPair link s
  | .safeClear link => Sys2Proof.Machine.execSafeClear link s
  | .setLine link => Sys2Proof.Machine.execSetLine link s
  | .enrolLineFull link => Sys2Proof.Machine.execEnrolLineFull link s
  | .enrolLineJoin link => Sys2Proof.Machine.execEnrolLineJoin link s
  | .setType link => Sys2Proof.Machine.execSetType link s
  | .forget link => Sys2Proof.Machine.execForget link s
  | .setLink link => Sys2Proof.Machine.execSetLink link s
  | .rigClear link => Sys2Proof.Machine.execRigClear link s
  | .keep link => Sys2Proof.Machine.execKeep link s
  | .readSlot link => Sys2Proof.Machine.execReadSlot link s
  | .readClaims link => Sys2Proof.Machine.execReadClaims link s
  | .readLine link => Sys2Proof.Machine.execReadLine link s
  | .readType link => Sys2Proof.Machine.execReadType link s
  | .readPart link => Sys2Proof.Machine.execReadPart link s
  | .schedulerPick line => Sys2Proof.Machine.execSchedulerPick line s
  | .enrolFrameStart line => Sys2Proof.Machine.execEnrolFrameStart line s
  | .lineFrameEnd line => Sys2Proof.Machine.execLineFrameEnd line s
  | .replyEnd line reply => Sys2Proof.Machine.execReplyEnd line reply s
  | .replyWindowExpiry line => Sys2Proof.Machine.execReplyWindowExpiry line s
  | .lateCharacters line => Sys2Proof.Machine.execLateCharacters line s
  | .dropDone line => Sys2Proof.Machine.execDropDone line s
  | .callDone line => Sys2Proof.Machine.execCallDone line s
  | .arbitrationEnd line samples => Sys2Proof.Machine.execArbitrationEnd line samples s
  | .assignDone line => Sys2Proof.Machine.execAssignDone line s
  | .capsReceived line reply => Sys2Proof.Machine.execCapsReceived line reply s
  | .capsWindowExpiry line => Sys2Proof.Machine.execCapsWindowExpiry line s
  | .safeNChange high => Sys2Proof.Machine.execSafeNChange high s
  | .safetyAssertion => Sys2Proof.Machine.execSafetyAssertion s
  | .safetyRelease => Sys2Proof.Machine.execSafetyRelease s
  | .capsFailure line reply => Sys2Proof.Machine.execCapsFailure line reply s
  | .stampBecomesOld which => Sys2Proof.Machine.execStampBecomesOld which s
  | .resetNChange high => Sys2Proof.Machine.execResetNChange high s

end Sys2Proof.Machine
end

