-- ==== Sys2Proof/Machine/RequestFrames.lean ====
section
/-! DEFINITION. Machine/RequestFrames.lean: the controller's side of R159: the frame a controller sends for a request,
written from the kind table, the field table and the payload table of section 12.1. Nothing the part does reads it. -/

namespace Sys2Proof.Machine

/-- The slot set rows of R159. -/
def SlotSet.bytes : SlotSet → List Byte
  | .range first count => byteOf 0 ++ byteOf first ++ byteOf count
  | .list slots => byteOf 1 ++ byteOf slots.length ++ slots.flatMap byteOf

/-- The option row of R159. -/
def StepOption.code : StepOption → Nat
  | .append => 0
  | .replace => 1

/-- A step as R159 codes it. -/
def StepFields.bytes (x : StepFields) : List Byte :=
  valueBytes x.target ++ bytes32 x.duration ++ bytes32 x.dwell ++ byteOf (x.curve.code + if x.tie then 128 else 0)

/-- The presence byte of a STEP: bit 0 for the mode, bit 1 for the low mark. -/
def presenceByte (mode : Option Mode) (low : Option Nat) : List Byte :=
  byteOf ((if mode.isSome then 1 else 0) + (if low.isSome then 2 else 0))

/-- The request codes of section 12.1. -/
def Request.kind : Request → Byte
  | .seize .. => 0x01#8
  | .release .. => 0x02#8
  | .step .. => 0x03#8
  | .halt .. => 0x04#8
  | .setMode .. => 0x05#8
  | .handoverAsk => 0x08#8
  | .handoverGive _ => 0x09#8
  | .handoverDecline => 0x0A#8
  | .override .. => 0x0B#8
  | .safeClear _ => 0x0C#8
  | .setLine _ => 0x10#8
  | .enrolLine .. => 0x11#8
  | .setType .. => 0x12#8
  | .forget _ => 0x13#8
  | .setLink .. => 0x14#8
  | .setPair _ => 0x15#8
  | .rigClear => 0x16#8
  | .keep => 0x18#8
  | .readSlot _ => 0x19#8
  | .readClaims .. => 0x1A#8
  | .readLine _ => 0x1B#8
  | .readType _ => 0x1C#8
  | .readPart => 0x1D#8

/-- The payloads of section 12.1. -/
def Request.payload : Request → List Byte
  | .seize set g => set.bytes ++ byteOf (groupCode g)
  | .release set g fade => set.bytes ++ byteOf (groupCode g) ++ bytes32 fade
  | .step set g option mode low steps =>
    set.bytes ++ byteOf (groupCode g) ++ byteOf option.code ++ presenceByte mode low ++
      ((mode.map (fun m => byteOf m.code)).getD []) ++ ((low.map byteOf).getD []) ++ byteOf steps.length ++
      steps.flatMap StepFields.bytes
  | .halt set g => set.bytes ++ byteOf (groupCode g)
  | .setMode set g mode low => set.bytes ++ byteOf (groupCode g) ++ byteOf mode.code ++ byteOf low
  | .handoverAsk => []
  | .handoverGive fade => bytes32 fade
  | .handoverDecline => []
  | .override on fade => boolByte on ++ bytes32 fade
  | .safeClear fade => bytes32 fade
  | .setLine x =>
    byteOf x.line.val ++ boolByte x.enabled ++ byteOf x.rate.code ++ bytes16 x.replyWindow ++ bytes16 x.refreshPeriod ++
      bytes16 x.joinPeriod
  | .enrolLine ln full => byteOf ln.val ++ byteOf (if full then 0 else 1)
  | .setType code matrix => bytes16 code.toNat ++ matrixBytes matrix
  | .forget set => set.bytes
  | .setLink l limit fade => byteOf l.index.val ++ bytes16 limit ++ bytes32 fade
  | .setPair fade => bytes32 fade
  | .rigClear => []
  | .keep => []
  | .readSlot n => byteOf n
  | .readClaims n g => byteOf n ++ byteOf (groupCode g)
  | .readLine ln => byteOf ln.val
  | .readType k => byteOf k.val
  | .readPart => []

/-- The frame a controller sends for a request, with a tag of its choice. -/
def Request.frame (r : Request) (tag : Byte) : Frame := { tag := tag, kind := r.kind, payload := r.payload }

/-- A two-byte field carries 0 to 65535. -/
def FitsWord (n : Nat) : Prop := n < 65536

/-- A four-byte field carries 0 to 2^32 − 1. -/
def FitsLong (n : Nat) : Prop := n < 4294967296

/-- A slot set that its form can carry and that passes the form stage of R5. -/
def SlotSet.Fits : SlotSet → Prop
  | .range first count => first < 256 ∧ 1 ≤ count ∧ count ≤ 192
  | .list slots => 1 ≤ slots.length ∧ slots.length ≤ 24 ∧ ∀ n ∈ slots, n < 256

/-- A step that its fields can carry, with as many target components as the group has. -/
def StepFields.Fits (g : Group) (x : StepFields) : Prop :=
  x.target.length = g.width ∧ (∀ v ∈ x.target, FitsWord v) ∧ FitsLong x.duration ∧ FitsLong x.dwell

/-- A signed coefficient of R27. -/
def FitsCoefficient (k : Int) : Prop := -32768 ≤ k ∧ k ≤ 32767

/-- A request whose fields can be carried by a frame that passes the form stage of R5. -/
def Request.Fits : Request → Prop
  | .seize set _ => set.Fits
  | .release set _ fade => set.Fits ∧ FitsLong fade
  | .step set g _ _ low steps =>
    set.Fits ∧ (∀ k, low = some k → k ≤ 7) ∧ 1 ≤ steps.length ∧ steps.length ≤ 8 ∧ ∀ x ∈ steps, x.Fits g
  | .halt set _ => set.Fits
  | .setMode set _ _ low => set.Fits ∧ low ≤ 7
  | .handoverAsk => True
  | .handoverGive fade => FitsLong fade
  | .handoverDecline => True
  | .override _ fade => FitsLong fade
  | .safeClear fade => FitsLong fade
  | .setLine x => FitsWord x.replyWindow ∧ FitsWord x.refreshPeriod ∧ FitsWord x.joinPeriod
  | .enrolLine _ _ => True
  | .setType _ matrix => ∀ row ∈ matrix.toList, FitsCoefficient row.c1 ∧ FitsCoefficient row.c2 ∧ FitsCoefficient row.c3
  | .forget set => set.Fits
  | .setLink _ limit fade => FitsWord limit ∧ FitsLong fade
  | .setPair fade => FitsLong fade
  | .rigClear => True
  | .keep => True
  | .readSlot n => n < 256
  | .readClaims n _ => n < 256
  | .readLine _ => True
  | .readType _ => True
  | .readPart => True

end Sys2Proof.Machine
end

