-- ==== Sys2Proof/Safety.lean ====
section
/-! DEFINITION. Safety.lean: what the manual promises of every state the part can be in, block by block, in the terms
in which claims are stated; and what counts as a safe run. -/

namespace Sys2Proof.Machine

/-! ## The Link Interface -/

/-- What a link holds keeps the bounds of R3, R9 and R12, at most one request is being worked on (R4), no request waits
while nothing is being worked on (R4), and a link that is IDLE or SILENT has nothing waiting (R15, section 1.6). -/
structure LinkRec.Sound (r : LinkRec) : Prop where
  /-- R3 -/
  requests_fit : r.requests.length ≤ 4
  /-- R9 -/
  notices_fit : r.notices.length ≤ 16
  /-- R9: NOTICE_OVERFLOW clears when the queue becomes empty -/
  overflow_over_notices : r.notices = [] → r.noticeOverflow = false
  /-- R4: no request is in hand while the answer buffer is occupied -/
  one_at_a_time : r.inHand.isSome = true → r.answer = none
  /-- R4: with nothing in hand and the answer buffer empty, the oldest frame has been handed on -/
  handed_on : r.answer = none → r.inHand = none → r.requests = []
  /-- R10: an answer being sent is the answer of the answer buffer -/
  sending_answer : ∀ x, r.sending = some x → x.isAnswer = true → r.answer.isSome = true
  /-- R15: what silence took -/
  silent_empty : r.state = .silent →
    r.requests = [] ∧ r.inHand = none ∧ r.notices = [] ∧ r.requestOverrun = false
  /-- Section 1.6: an IDLE link has had no good frame -/
  idle_empty : r.state = .idle →
    r.requests = [] ∧ r.inHand = none ∧ r.notices = [] ∧ r.requestOverrun = false ∧ r.answer = none
  /-- R12 -/
  limit_range : 100 ≤ r.silenceLimit ∧ r.silenceLimit ≤ 5000
  /-- R12, R117 -/
  fade_range : r.lossFade ≤ 600000

/-- Every link is as `LinkRec.Sound` says. -/
def State.LinksSound (s : State) : Prop := ∀ l, (s.link l).Sound

/-- R12, R17: a console link holds no loss fade, which its record keeps as 0. -/
def State.LossFadesSound (s : State) : Prop := (s.link .cl0).lossFade = 0 ∧ (s.link .cl1).lossFade = 0

/-! ## The Safety Layer -/

/-- R154: the filtered level is asserted in HOLDING and released in CLEAR and LATCHED. -/
def State.SafetySound (s : State) : Prop := s.safeAsserted = true ↔ s.safety = .holding

/-! ## The Line Sequencers -/

/-- R42, R142: the effective rate of every line is the smallest of its requested rate and the maximum rates of the
ONLINE slots bound to it. -/
def State.RatesSound (s : State) : Prop :=
  ∀ ln, (s.line ln).effective.kbits ≤ (s.line ln).requested.kbits ∧
    (∀ n f, (s.slot n).fixture = some f → f.line = ln → f.online = true →
      (s.line ln).effective.kbits ≤ f.maxRate.kbits) ∧
    ((s.line ln).effective = (s.line ln).requested ∨
      ∃ n f, (s.slot n).fixture = some f ∧ f.line = ln ∧ f.online = true ∧ (s.line ln).effective = f.maxRate)

/-- A line record keeps the ranges of R135, and its sequencer state agrees with its settings, its exchange in flight and
its operation (R37, R137). -/
structure LineRec.Sound (r : LineRec) : Prop where
  /-- R135 -/
  window_range : 100 ≤ r.replyWindow ∧ r.replyWindow ≤ 2000
  /-- R135 -/
  refresh_range : 100 ≤ r.refreshPeriod ∧ r.refreshPeriod ≤ 5000
  /-- R135 -/
  join_range : 250 ≤ r.joinPeriod ∧ r.joinPeriod ≤ 10000
  /-- R137: a line is OFF exactly while its enabled setting is off and no disable is pending -/
  off_iff : r.seq = .off ↔ (r.enabled = false ∧ r.disablePending = false)
  /-- R147: a pending disable has the enabled setting off and waits for an exchange in flight -/
  pending_waits : r.disablePending = true → r.enabled = false ∧ r.exchange.isSome = true
  /-- R137: no exchange and no operation while the line is OFF or IDLE -/
  resting : r.seq = .off ∨ r.seq = .idle → r.exchange = none ∧ r.enrol.operation = .none
  /-- R137: a SET or POLL frame is going out in SENDING -/
  sending : r.seq = .sending → ∃ x, r.exchange = some x ∧ x.frame.slotAddress.isSome = true ∧ x.phase = .frame
  /-- R137: the reply window of a SET or POLL frame is open in AWAITING -/
  awaiting : r.seq = .awaiting → ∃ x, r.exchange = some x ∧ x.frame.slotAddress.isSome = true ∧ x.phase = .window
  /-- R137, R46: an operation runs in ENROLLING, and no SET or POLL exchange does -/
  enrolling : r.seq = .enrolling →
    r.enrol.operation ≠ .none ∧ ∀ x, r.exchange = some x → x.frame.slotAddress = none
  /-- R37, R39: a record at rest -/
  at_rest : r.enrol.operation = .none →
    r.enrol.subState = none ∧ r.enrol.captured = none ∧ r.enrol.offered = none ∧ r.enrol.attempt = none ∧
      r.enrol.giveUp = none
  /-- R37: a sub-state while an operation runs -/
  at_work : r.enrol.operation ≠ .none → r.enrol.subState.isSome = true
  /-- R43: an ASSIGN on the line carries the captured ID and the offered address -/
  assigning : ∀ x u a, r.exchange = some x → x.frame = .assign u a →
    r.enrol.captured = some u ∧ r.enrol.offered = some a ∧ r.enrol.giveUp = none
  /-- R41: a CALL is sent in CALLING, and its arbitration window is open in ARBITRATING -/
  calling : ∀ x, r.exchange = some x → x.frame = .call →
    r.enrol.giveUp = none ∧ r.enrol.subState = some (if x.phase = .arbitration then .arbitrating else .calling)
  /-- R39, R40: a DROP gives a fixture up, or opens a FULL enrolment in DROPPING -/
  dropping : ∀ x a, r.exchange = some x → x.frame = .drop a →
    r.enrol.giveUp.isSome = true ∨ r.enrol.subState = some .dropping
  /-- R37, R42: an address is offered in ASSIGNING alone -/
  offered_in_assigning : r.enrol.subState ≠ some .assigning → r.enrol.offered = none
  /-- R22, R42: an offered address is 1 to 32 -/
  offered_range : ∀ a, r.enrol.offered = some a → 1 ≤ a ∧ a ≤ 32

/-- While the part is not in reset, every line is as `LineRec.Sound` says. -/
def State.LinesSound (s : State) : Prop := s.inReset = false → ∀ ln, (s.line ln).Sound

/-! ## The Fixture Table -/

/-- R19: the ranges of a bound slot's fields. An ONLINE slot has fewer than three misses (R49). -/
structure Fixture.InRange (f : Fixture) : Prop where
  address_range  : 1 ≤ f.address ∧ f.address ≤ 32
  emitters_range : 3 ≤ f.emitters ∧ f.emitters ≤ 5
  pan_speed      : 1 ≤ f.panSpeed ∧ f.panSpeed ≤ 4095
  tilt_speed     : 1 ≤ f.tiltSpeed ∧ f.tiltSpeed ≤ 4095
  misses_range   : f.misses ≤ 3
  online_misses  : f.online = true → f.misses ≤ 2 ∧ f.pollTime = none

/-- R19, R21, R22: every bound slot's fields are in range, no two bound slots hold one unique ID, and no two slots bound
to one line share a short address. -/
structure State.TableSound (s : State) : Prop where
  in_range : ∀ n f, (s.slot n).fixture = some f → f.InRange
  ids_differ : ∀ n m f g, (s.slot n).fixture = some f → (s.slot m).fixture = some g → f.uniqueId = g.uniqueId → n = m
  addresses_differ : ∀ n m f g, (s.slot n).fixture = some f → (s.slot m).fixture = some g → f.line = g.line →
    f.address = g.address → n = m

/-- R42: an address offered on a line stays free for the captured ID until the binding. -/
def State.OffersSound (s : State) : Prop :=
  ∀ ln x a, (s.line ln).enrol.captured = some x → (s.line ln).enrol.offered = some a →
    ∀ n f, (s.slot n).fixture = some f → f.line = ln → f.address = a → f.uniqueId = x

/-- R37: the bound count of a line is 0 to 32. It counts bindings of the present operation, and a fixture so bound stays
ONLINE on the line while the operation runs; an operation in DROPPING, or one that waits for a SET or POLL exchange to end,
has bound nobody. -/
def State.BoundsSound (s : State) : Prop :=
  ∀ ln, (s.line ln).enrol.bound ≤ 32 ∧
    ((s.line ln).enrol.operation ≠ .none →
      (s.line ln).enrol.bound ≤ (s.onlineOf ln).length ∧
        ((s.line ln).enrol.subState = some .dropping → (s.line ln).enrol.bound = 0) ∧
        ∀ x, (s.line ln).exchange = some x → x.frame.slotAddress.isSome = true → (s.line ln).enrol.bound = 0)

/-! ## The claim pool and the step pool -/

/-- R55, R56, R90, R93, R97: at most 1024 claims, each with its own number and its own link, slot and group; at most 8
pending steps, none behind a claim that runs none; at most 4096 steps; and exactly one expiry entry for each claim that
has a running step, holding its expiry time. -/
structure State.PoolsSound (s : State) : Prop where
  claims_fit : s.claims.length ≤ 1024
  numbers_differ : (s.claims.map (·.number)).Nodup
  numbers_fit : ∀ c ∈ s.claims, c.number < 1024
  one_per_link : ∀ c ∈ s.claims, ∀ d ∈ s.claims, c.link = d.link → c.slot = d.slot → c.group = d.group → c = d
  queues_fit : ∀ c ∈ s.claims, c.queue.length ≤ 8 ∧ c.lowMark ≤ 7
  /-- R57: the taken stamps are ordered as they were set -/
  orders_differ : (s.claims.map (·.takenOrder)).Nodup
  orders_past : ∀ c ∈ s.claims, c.takenOrder < s.stampCount
  queue_behind_running : ∀ c ∈ s.claims, c.running = none → c.queue = []
  steps_fit : s.stepRecords.length ≤ 4096
  entries_differ : (s.expiryList.map (·.claim)).Nodup
  entry_runs : ∀ e ∈ s.expiryList, ∃ c ∈ s.claims, c.number = e.claim ∧ ∃ r, c.running = some r ∧ r.expiry = e.time
  running_has_entry : ∀ c ∈ s.claims, c.running.isSome = true → ∃ e ∈ s.expiryList, e.claim = c.number
  /-- R97: a step of no time has retired within the event that started it -/
  settled : ∀ c ∈ s.claims, ∀ r, c.running = some r → r.step.instant = false

/-- R90: every step in use has a record of its own, numbered 0 to 4095. -/
def State.RecordsSound (s : State) : Prop := s.stepRecords.Nodup ∧ ∀ k ∈ s.stepRecords, k < 4096

/-- R97: the time remaining until an expiry time, measured from a reading: below 0 where the expiry is overdue. -/
def timeLeft (now expiry : Reading) : Int := (expiry - now).toInt

/-- R97: an expiry lies no more than 1,200,000 ms ahead; and it is overdue by no more than 2^30 ms, which a sender that
commands each STEP_EXPIRY in its time never lets happen. -/
abbrev ExpiryNear (now expiry : Reading) : Prop := -1073741824 ≤ timeLeft now expiry ∧ timeLeft now expiry ≤ 1200000

/-- Every expiry of the list is as `ExpiryNear` says. -/
def State.ExpiriesNear (s : State) : Prop := ∀ e ∈ s.expiryList, ExpiryNear s.now e.time

/-- R97: the entries of the expiry list stand in order of the time remaining until their expiry. -/
def State.ExpiriesInOrder (s : State) : Prop :=
  s.expiryList.Pairwise fun d e => timeLeft s.now d.time ≤ timeLeft s.now e.time

/-- R60, R77: every claim of the pool has the role that the pair record gives its link. -/
def State.RolesSound (s : State) : Prop := ∀ c ∈ s.claims, c.role = s.pair.roleFor c.link

/-! ## Values -/

/-- A value of a group in range: as many components as the group has, each 0–65535 (R24, R55, R90). -/
def Value.Fits (g : Group) (v : Value) : Prop := v.length = g.width ∧ ∀ x ∈ v, x ≤ 65535

/-- A step's target, and the start value of a running step, fit their group; its times are at most 600,000 (R90). -/
def RunningStep.Fits (g : Group) (r : RunningStep) : Prop :=
  Value.Fits g r.step.target ∧ Value.Fits g r.startValue ∧ r.step.duration ≤ 600000 ∧ r.step.dwell ≤ 600000

/-- Every parked value, crossfade from-value, rest value, target and start value fits its group, and every duration,
dwell and fade is at most 600,000 ms (R19, R55, R67, R90, R117). -/
structure State.ValuesSound (s : State) : Prop where
  parked_fits : ∀ n g, Value.Fits g ((s.slot n).parked.get g)
  fade_fits : ∀ n g x, (s.slot n).fades.get g = some x → Value.Fits g x.fromValue ∧ x.duration ≤ 600000
  claim_fits : ∀ c ∈ s.claims, Value.Fits c.group c.rest ∧ (∀ r, c.running = some r → r.Fits c.group) ∧
    ∀ x ∈ c.queue, Value.Fits c.group x.target ∧ x.duration ≤ 600000 ∧ x.dwell ≤ 600000
  failover_fits : s.pair.failoverFade ≤ 600000
  loss_fits : ∀ l, (s.link l).lossFade ≤ 600000

/-! ## Takings, answers and frames, as statements name them -/

/-- R4: the part runs, and the request `r` is in hand on the link `l`, in the frame `f`. -/
def State.InHand (s : State) (l : Link) (f : Frame) (r : Request) : Prop :=
  s.inReset = false ∧ (s.link l).inHand = some f ∧ f.request = some r

/-- R6, R7: the answer to the frame `f`, taken in `s` and placed in `t` on the link `l`. -/
def answerTo (s t : State) (l : Link) (f : Frame) (status : Status) (data : AnswerData) : Answer :=
  { tag := f.tag
    kind := f.kind ||| 0x80#8
    status := status
    flags := { requestOverrun := (s.link l).requestOverrun
               noticeOverflow := (t.link l).noticeOverflow
               safetyActive := decide (t.safety ≠ .clear) }
    data := data }

/-- R4, R7: in `t` the frame is no longer in hand on `l`, its answer is in the answer buffer, and the link's
REQUEST_OVERRUN flag is clear. The answer's flags are read when it is placed, after the effects and their notices
(log entry 13). -/
def Answered (s t : State) (l : Link) (f : Frame) (status : Status) (data : AnswerData) : Prop :=
  (t.link l).inHand = none ∧ (t.link l).requestOverrun = false ∧
    (t.link l).answer = some (answerTo s t l f status data)

/-- R5: the request is answered, and no other state changes anywhere in the part. -/
def AnsweredOnly (s t : State) (l : Link) (f : Frame) (status : Status) (data : AnswerData) : Prop :=
  t = s.setLink l
    { s.link l with inHand := none, requestOverrun := false, answer := some (answerTo s s l f status data) }

/-- A taking on the link `l` leaves of the links everything but their notices, and the frame in hand, the answer and
the REQUEST_OVERRUN flag of `l`. -/
def LinksKept (s t : State) (l : Link) : Prop :=
  ∀ k, t.link k =
    { s.link k with
      notices := (t.link k).notices
      noticeOverflow := (t.link k).noticeOverflow
      inHand := (if k = l then t.link k else s.link k).inHand
      answer := (if k = l then t.link k else s.link k).answer
      requestOverrun := (if k = l then t.link k else s.link k).requestOverrun }

/-- An event that is no taking leaves of the links everything but their notices. -/
def LinksHear (s t : State) : Prop :=
  ∀ k, t.link k = { s.link k with notices := (t.link k).notices, noticeOverflow := (t.link k).noticeOverflow }

/-- Everything a slot holds but its parked values, its crossfade records and CHANGED is as it was. -/
def FixturesKept (s t : State) : Prop :=
  ∀ n, (t.slot n).fixture = (s.slot n).fixture ∧ (t.slot n).flags.urgent = (s.slot n).flags.urgent ∧
    (t.slot n).flags.lagging = (s.slot n).flags.lagging ∧ (t.slot n).flags.gamut = (s.slot n).flags.gamut

/-- R8, R9: every link of a list has had its copy of a notice, and the links beyond it are as they were. -/
def HeardBy (s t : State) (links : List Link) (n : Notice) : Prop :=
  ∀ k, t.link k = if k ∈ links then (s.link k).receive n else s.link k

/-- R8, R9: a link has had its own copy of each notice of a list, in their order, and no other notice came to its queue
or left it. -/
def Hears (r r' : LinkRec) (ns : List Notice) : Prop :=
  r'.notices = (ns.foldl LinkRec.receive r).notices ∧ r'.noticeOverflow = (ns.foldl LinkRec.receive r).noticeOverflow

/-- No link has had a notice, and none has lost one. -/
def Quiet (s t : State) : Prop := ∀ k, Hears (s.link k) (t.link k) []

/-- R10, R15: what silence leaves of a link: nothing waits on it, and of its answer buffer only an answer whose sending has
begun. -/
def Silenced (r r' : LinkRec) : Prop :=
  r' = { r with
    state := .silent, requests := [], inHand := none, notices := [], requestOverrun := false, noticeOverflow := false
    answer := if r.sending.any (·.isAnswer) then r.answer else none }

/-! ## Who gained and who lost a group, as statements name it -/

/-- R72: the slot groups, lowest slot first, that a link gained by an event: a claim of the link owns them after it, and
that claim did not before. -/
def gainedBy (s t : State) (k : Link) : List (SlotNo × Group) :=
  (allSlots.flatMap fun n => [(n, Group.aim), (n, .colour), (n, .level)]).filter fun x =>
    decide ((t.owner x.1 x.2).map (·.link) = some k) && decide (t.ownerNumber x.1 x.2 ≠ s.ownerNumber x.1 x.2)

/-- R72: the notices of restoration to a link that gained these slot groups: one, unless it gained none. -/
def restoredNotices (cause : RestoreCause) : List (SlotNo × Group) → List Notice
  | [] => []
  | x :: rest =>
    [.claimRestored cause
      { aim := (x :: rest).any (fun y => decide (y.2 = .aim)), colour := (x :: rest).any (fun y => decide (y.2 = .colour))
        level := (x :: rest).any (fun y => decide (y.2 = .level)) } x.1.val (rest.length + 1)]

/-- R71: the slots of a set, lowest first, on which a link lost the ownership of a group to a request of the link
`taker`. -/
def lostBy (s t : State) (taker k : Link) (g : Group) (slots : List SlotNo) : List SlotNo :=
  allSlots.filter fun n => decide (n ∈ slots) && decide (k ≠ taker) &&
    decide ((s.owner n g).map (·.link) = some k) && decide ((t.owner n g).map (·.link) = some taker)

/-- R71: the notices of displacement to a link that lost a group on these slots: one, unless it lost none. -/
def displacedNotices (g : Group) (taker : Link) : List SlotNo → List Notice
  | [] => []
  | n :: rest => [.claimDisplaced g taker n.val (rest.length + 1)]

/-- R50: FIXTURE_GONE of every ONLINE slot of a line, lowest slot first. -/
def allGone (s : State) (ln : LineNo) (cause : GoneCause) : List Notice :=
  allSlots.filterMap fun n =>
    match (s.slot n).fixture with
    | none => none
    | some f => if f.line = ln ∧ f.online = true then some (.fixtureGone n ln f.address cause) else none

/-- R86: the PAIR_CHANGED of an event, with the pair record after it, to a console link alone. -/
def pairNotices (p : Pair) (cause : PairCause) (fade : Nat) (k : Link) : List Notice :=
  if k = .cl0 ∨ k = .cl1 then [.pairChanged cause p.activeLink p.override p.askPending fade] else []

/-- R152: the LINE_CONDITION of a condition that enters a line's set: none where it is present already. -/
def enteredNotices (s : State) (ln : LineNo) (k : LineCondition) : List Notice :=
  if (s.line ln).conditions.has k then [] else [.lineCondition ln k true]

/-- R39, R46: the ENROL_DONE of an operation that is abandoned: none where no operation runs. -/
def abandonedNotices (s : State) (ln : LineNo) : List Notice :=
  if (s.line ln).enrol.operation = .none then [] else [.enrolDone ln (s.line ln).enrol.bound .abandoned]

/-- R66, R67, R90: the claims that `gone` picks have been removed by one event with a fade. Their steps and their expiry
entries went with them. A group from which a claim was removed fades from its present value over the fade, toward what is
left of its stack, where its owner changed; it keeps its parked value and its crossfade record where the owner stayed; and
it holds its present value as its parked value where its stack is empty now. Every other group keeps both, and CHANGED is
set where an owner was removed. -/
def ClaimsGone (s t : State) (gone : Claim → Bool) (fade : Nat) : Prop :=
  t.claims = s.claims.filter (fun c => !gone c) ∧
    t.expiryList = s.expiryList.filter (fun e => decide ((t.claim e.claim).isSome)) ∧
    ∀ n,
      (∀ g,
        if s.claims.any (fun c => gone c && decide (c.slot = n) && decide (c.group = g)) then
          if t.claims.any (fun c => decide (c.slot = n) && decide (c.group = g)) then
            (t.slot n).parked.get g = (s.slot n).parked.get g ∧
              (t.slot n).fades.get g =
                if t.ownerNumber n g = s.ownerNumber n g then (s.slot n).fades.get g
                else some { fromValue := s.present n g, start := { reading := s.now, old := false }, duration := fade }
          else (t.slot n).parked.get g = s.present n g ∧ (t.slot n).fades.get g = none
        else
          (t.slot n).parked.get g = (s.slot n).parked.get g ∧ (t.slot n).fades.get g = (s.slot n).fades.get g) ∧
      (t.slot n).flags.changed =
        ((s.slot n).flags.changed || allGroups.any (fun g => decide (t.ownerNumber n g ≠ s.ownerNumber n g)))

/-- A run of characters, all with good stop bits. -/
def asCharacters (bytes : List Byte) : List RxChar := bytes.map (fun b => { byte := b, stopOk := true })

/-- R3, R4: the requests of a link that have not been taken, oldest first: the one in hand and those queued. -/
def LinkRec.waiting (r : LinkRec) : List Frame := r.inHand.toList ++ r.requests

/-! ## Runs -/

/-- Every promise of this file at once. -/
structure State.Sound (s : State) : Prop where
  links : s.LinksSound
  lossFades : s.LossFadesSound
  safety : s.SafetySound
  rates : s.RatesSound
  lines : s.LinesSound
  table : s.TableSound
  offers : s.OffersSound
  bounds : s.BoundsSound
  pools : s.PoolsSound
  records : s.RecordsSound
  expiries : s.ExpiriesInOrder
  roles : s.RolesSound
  values : s.ValuesSound

/-- A run of k steps is safe when no step of it faults or is refused and every state of it is sound. -/
def SafeRun : Nat → State → Prop
  | 0, s => s.Sound
  | k + 1, s => s.Sound ∧ ∃ t, step s = .next t ∧ SafeRun k t

end Sys2Proof.Machine
end

