-- ==== Sys2Proof/Certificates/Slice0/Obligations.lean ====
section
/-! DEFINITION. Certificates/Slice0/Obligations.lean: the statements for the provers. Each docstring names the rules a
statement formalises; a statement about requests takes the request in hand (R4) from the state. -/

open Sys2Proof Sys2Proof.Machine

/-! ## The machine as a whole -/

/-- A step runs the command at the front of the queue on the rest of the queue; with no command waiting a microsecond
passes and nothing else changes (log entry 3: the model's choice). -/
def Obligations.StepRunsTheFrontCommand : Prop :=
  (∀ (c : Instr) (rest : List Instr) (s : State), step { s with pending := c :: rest } = exec c { s with pending := rest }) ∧
    ∀ s : State, s.pending = [] → step s = .next { s with micros := s.micros + 1 }

/-- Every command completes in every state. No command touches the queue or the time; only the pins' own commands
change what the pins carry; only power and reset commands move the part into reset or out of it (R161).
The model's choices: that a command completes where its condition does not hold and that none faults (log entries 4 and
5), that a command takes no time (log entry 3), that commands wait in a queue which none of them touches (log entry 10),
and that only POWER_ON_RESET writes whether the supply is in range (log entry 35). -/
def Obligations.EveryCommandCompletes : Prop :=
  ∀ (c : Instr) (s : State), ∃ t, exec c s = .next t ∧ t.pending = s.pending ∧ t.micros = s.micros ∧
    (c ≠ .leaveReset → t.clockBase = s.clockBase) ∧
    (c ≠ .leaveReset → (∀ x, c ≠ .powerOnReset x) → t.inReset = s.inReset) ∧
    ((∀ x, c ≠ .powerOnReset x) → t.supplyInRange = s.supplyInRange) ∧
    ((∀ h, c ≠ .resetNChange h) → t.resetNHigh = s.resetNHigh) ∧
    ((∀ h, c ≠ .safeNChange h) → t.safeNHigh = s.safeNHigh)

/-- What `State.reset` leaves in every block, as the chapters give it for power-on reset (R24, R26, R28, R37, R55, R76,
R90, R135, section 1.6). The level of SAFE_N is the model's choice (log entry 2), and is not stated here. -/
def Obligations.ResetValues : Prop :=
  State.reset.now = 0 ∧
    (∀ l, (State.reset.link l).state = .idle ∧ (State.reset.link l).requests = [] ∧ (State.reset.link l).notices = [] ∧
      (State.reset.link l).inHand = none ∧ (State.reset.link l).answer = none ∧ (State.reset.link l).sending = none ∧
      (State.reset.link l).requestOverrun = false ∧ (State.reset.link l).noticeOverflow = false ∧
      (State.reset.link l).silenceLimit = 500) ∧
    (State.reset.link .cl2).lossFade = 2000 ∧ (State.reset.link .cl3).lossFade = 2000 ∧
    State.reset.pair = { active := .a, override := false, askPending := false, failoverFade := 2000 } ∧
    (∀ n, (State.reset.slot n).state = .free ∧
      (State.reset.slot n).parked = { aim := [32768, 32768], colour := [65535, 65535, 65535], level := [0] } ∧
      (State.reset.slot n).fades = { aim := none, colour := none, level := none } ∧
      (State.reset.slot n).flags = { changed := false, urgent := false, lagging := false, gamut := false }) ∧
    (∀ k, State.reset.typeEntry k = none) ∧ State.reset.claims = [] ∧ State.reset.expiryList = [] ∧
    ∀ ln, (State.reset.line ln).enabled = true ∧ (State.reset.line ln).requested = .r1000 ∧
      (State.reset.line ln).effective = .r1000 ∧ (State.reset.line ln).replyWindow = 300 ∧
      (State.reset.line ln).refreshPeriod = 1000 ∧ (State.reset.line ln).joinPeriod = 2000 ∧
      (State.reset.line ln).seq = .enrolling ∧ (State.reset.line ln).disablePending = false ∧
      (State.reset.line ln).joinSuspended = false ∧ (State.reset.line ln).lastCall = none ∧
      (State.reset.line ln).enrol.operation = .full ∧ (State.reset.line ln).enrol.subState = some .dropping ∧
      (State.reset.line ln).enrol.bound = 0 ∧
      (State.reset.line ln).conditions =
        { enrolFailed := false, tableFull := false, duplicateId := false, wrongAddress := false }

/-- R161: the rise of the supply, and RESET_N low for 1 ms, put the part into reset, in which it sends nothing on any
link or line; a shorter low is ignored; no command but those of power and pins does anything in reset; and a change of
the raw level of RESET_N or SAFE_N is followed, and begins a new run (R153), in reset and out of it. That the entry into
reset keeps all else as it was (log entry 24), that the supply is in range from its very rise (log entry 35), that every
change of the level begins a new run (log entry 36), and that a command changes nothing where its time or its condition has
not come (log entry 4), are the model's choices. -/
def Obligations.ResetIsEntered : Prop :=
  (∀ s : State, ∃ t, exec (.powerOnReset .supplyRise) s = .next t ∧ t.inReset = true ∧ t.supplyInRange = true ∧
    (∀ l, (t.link l).sending = none) ∧ ∀ ln, (t.line ln).exchange = none ∧ t.drives ln = false) ∧
  (∀ s : State, s.resetNHigh = false → 1000 ≤ s.micros - s.resetNChangedAt →
    ∃ t, exec (.powerOnReset .resetNLow) s = .next t ∧ t = { s with inReset := true, links := t.links, lines := t.lines } ∧
      (∀ l, (t.link l).sending = none) ∧ ∀ ln, (t.line ln).exchange = none ∧ t.drives ln = false) ∧
  (∀ s : State, s.resetNHigh = false → s.micros - s.resetNChangedAt < 1000 →
    exec (.powerOnReset .resetNLow) s = .next s) ∧
  (∀ (c : Instr) (s : State), s.inReset = true → c ≠ .leaveReset → (∀ x, c ≠ .powerOnReset x) →
    (∀ h, c ≠ .resetNChange h) → (∀ h, c ≠ .safeNChange h) → exec c s = .next s) ∧
  ∀ (s : State) (high : Bool),
    (s.resetNHigh ≠ high →
      exec (.resetNChange high) s = .next { s with resetNHigh := high, resetNChangedAt := s.micros }) ∧
    (s.resetNHigh = high → exec (.resetNChange high) s = .next s) ∧
    (s.safeNHigh ≠ high →
      exec (.safeNChange high) s = .next { s with safeNHigh := high, safeNChangedAt := s.micros }) ∧
    (s.safeNHigh = high → exec (.safeNChange high) s = .next s)

/-- R153, R154, R161: the part leaves reset once RESET_N has been high for 1 ms with the supply in range, and then the
show clock reads 0, the Safety Layer follows SAFE_N as it stands and every other block holds what `State.reset` holds, with
the values that the model chose for the fields of links and lines for which the manual gives none (log entry 6); before
that nothing changes. That a command changes nothing where its time or its condition has not come is the model's choice
(log entry 4). -/
def Obligations.ResetIsLeft : Prop :=
  (∀ s : State, s.inReset = true → s.resetNHigh = true → 1000 ≤ s.micros - s.resetNChangedAt → s.supplyInRange = true →
    ∃ t, exec .leaveReset s = .next t ∧ t.inReset = false ∧ t.now = 0 ∧ t.safeAsserted = !s.safeNHigh ∧
      t.safety = (if s.safeNHigh then .clear else .holding) ∧ t.safeNReading = 0 ∧ t.links = State.reset.links ∧
      t.pair = State.reset.pair ∧ t.slots = State.reset.slots ∧ t.types = State.reset.types ∧ t.claims = [] ∧
      t.expiryList = [] ∧ t.lines = State.reset.lines) ∧
  ∀ s : State, s.inReset = true →
    (s.resetNHigh = false ∨ s.micros - s.resetNChangedAt < 1000 ∨ s.supplyInRange = false) → exec .leaveReset s = .next s

/-! ## Frames and requests as they are coded -/

/-- R2, R159: the frame written for a tag, a kind and a payload is received as that frame, and nothing but a frame so
written, with every stop bit good, is received as a good frame. -/
def Obligations.ControlFramesAreReadAsWritten : Prop :=
  ∀ (chars : List RxChar) (f : Frame),
    (chars.foldl Assembler.take Assembler.empty).goodFrame = some f ↔
      (chars = asCharacters (controlFrame f.tag f.kind f.payload) ∧ f.payload.length ≤ 248)

/-- R5, R159: a frame makes a request exactly when it is the frame written for that request, with the request's kind
code and its payload coded field by field, and every field within what its coding carries. Three codings for which R159
has no row, or no meaning, are the model's choice: 1 is on and yes in OVERRIDE and SET_LINE (log entry 32), the low mark
takes one byte in STEP and SET_MODE (log entry 34), and the entry number takes one byte in READ_TYPE (log entry 37). -/
def Obligations.RequestsAreReadAsWritten : Prop :=
  ∀ (f : Frame) (r : Request), f.request = some r ↔ (r.Fits ∧ f = r.frame f.tag)

/-! ## Changes that several statements name -/

/-- R70, R77, R85: what a change of the pair record to `p` with a fade leaves: every claim has the role `p` gives its
link, and nothing else of it has changed; each group whose owner is another claim carries a crossfade record from its
present value over the fade, with CHANGED set; every other group is as it was. -/
def RolesChanged (s t : State) (p : Pair) (fade : Nat) : Prop :=
  t.pair = p ∧ t.claims = s.claims.map (fun c => { c with role := p.roleFor c.link }) ∧ FixturesKept s t ∧
    (∀ n, (t.slot n).parked = (s.slot n).parked ∧
      (t.slot n).flags.changed =
        ((s.slot n).flags.changed || allGroups.any (fun g => decide (t.ownerNumber n g ≠ s.ownerNumber n g)))) ∧
    ∀ n g, (t.slot n).fades.get g =
      if t.ownerNumber n g = s.ownerNumber n g then (s.slot n).fades.get g
      else some { fromValue := s.present n g, start := { reading := s.now, old := false }, duration := fade }

/-! ## The Link Interface -/

/-- R2, R3, R4, R8, R9, R11, R14, R81 (its rows of a link that becomes LIVE), R85, R86: a good frame makes its link LIVE
and restarts its silence timer; it joins the tail of the requests that wait, or is discarded with REQUEST_OVERRUN when four
frames are queued; a request is in hand whenever one waits and the answer buffer is empty; the rest of the link's record
stays. Where the frame makes the STANDBY link LIVE while the ACTIVE link is not, the roles swap with the failover fade,
cause STANDBY_LIVE, and the links hear of it; otherwise nothing else changes, and no notice comes or goes. A frame that is
not good changes nothing. -/
def Obligations.FramesArrive : Prop :=
  (∀ (s : State) (l : Link) (f : Frame), s.inReset = false → (s.link l).assembler = Assembler.empty →
    f.payload.length ≤ 248 →
    ∃ t, exec (.frameArrival l (asCharacters (controlFrame f.tag f.kind f.payload))) s = .next t ∧
      t.link l =
        { s.link l with
          state := .live
          lastGood := s.now
          requests := (t.link l).requests
          inHand := (t.link l).inHand
          requestOverrun := (t.link l).requestOverrun
          notices := (t.link l).notices
          noticeOverflow := (t.link l).noticeOverflow } ∧
      (if (s.link l).requests.length < 4 then
        (t.link l).waiting = (s.link l).waiting ++ [f] ∧ (t.link l).requestOverrun = (s.link l).requestOverrun
      else (t.link l).waiting = (s.link l).waiting ∧ (t.link l).requestOverrun = true) ∧
      ((t.link l).answer = none → (t.link l).inHand = none → (t.link l).requests = []) ∧
      ((s.link l).answer.isSome = true ∨ (s.link l).inHand.isSome = true → (t.link l).inHand = (s.link l).inHand) ∧
      (if l = s.pair.standbyLink ∧ (s.link l).state ≠ .live ∧ (s.link s.pair.activeLink).state ≠ .live then
        s.RolesSound →
          RolesChanged s t { s.pair with active := s.pair.active.other, override := false, askPending := false }
            s.pair.failoverFade ∧
          t = { s with links := t.links, pair := t.pair, slots := t.slots, claims := t.claims } ∧
          (∀ k, k ≠ l →
            t.link k = { s.link k with notices := (t.link k).notices, noticeOverflow := (t.link k).noticeOverflow }) ∧
          ∀ k, Hears (if k = l then { s.link l with state := .live } else s.link k) (t.link k)
            (restoredNotices .pair (gainedBy s t k) ++ pairNotices t.pair .standbyLive s.pair.failoverFade k)
      else t = { s with links := t.links } ∧ (∀ k, k ≠ l → t.link k = s.link k) ∧ Quiet s t)) ∧
  ∀ (s : State) (l : Link) (chars : List RxChar), s.inReset = false → (s.link l).assembler = Assembler.empty →
    (∀ f : Frame, f.payload.length ≤ 248 → chars ≠ asCharacters (controlFrame f.tag f.kind f.payload)) →
    exec (.frameArrival l chars) s = .next s

/-- R11, R13, R15, R66, R67, R72: when the silence timer of CL2 or CL3 runs out, the link becomes SILENT with nothing
waiting on it, and every claim it holds is released with its loss fade, with its steps and its expiry entries: the groups it
owned fade from their present values toward what is left, or hold them; every other link hears, by one CLAIM_RESTORED of
cause SILENCE, of the groups it gained; and the claims of the other links are as they were. A link that is not LIVE, or
whose limit has not run, is not silenced. That a command changes nothing where its time or its condition has not come is
the model's choice (log entry 4). -/
def Obligations.SilenceReleasesAFeed : Prop :=
  (∀ (s : State) (l : Link), s.inReset = false → (l = .cl2 ∨ l = .cl3) → s.PoolsSound → (s.link l).state = .live →
    (s.link l).silenceLimit ≤ elapsed (s.link l).lastGood s.now →
    ∃ t, exec (.silenceTimeout l) s = .next t ∧ Silenced (s.link l) (t.link l) ∧
      ClaimsGone s t (fun c => decide (c.link = l)) (s.link l).lossFade ∧ FixturesKept s t ∧
      (∀ k, k ≠ l → t.link k =
          { s.link k with notices := (t.link k).notices, noticeOverflow := (t.link k).noticeOverflow } ∧
        Hears (s.link k) (t.link k) (restoredNotices .silence (gainedBy s t k))) ∧
      t = { s with links := t.links, slots := t.slots, claims := t.claims, expiryList := t.expiryList }) ∧
  ∀ (s : State) (l : Link), s.inReset = false →
    ((s.link l).state ≠ .live ∨ elapsed (s.link l).lastGood s.now < (s.link l).silenceLimit) →
    exec (.silenceTimeout l) s = .next s

/-- R159: fields one after another, each with its width in bytes and its value, most significant byte first. -/
def fieldBytes (fields : List (Nat × Nat)) : List Byte :=
  fields.flatMap fun x => (List.range x.1).map fun k => BitVec.ofNat 8 (x.2 / 256 ^ (x.1 - 1 - k))

/-- R159: a field that may be absent: a presence byte, and its width in zeros where it is absent. -/
def optionally (width : Nat) (fields : Option (List (Nat × Nat))) : List (Nat × Nat) :=
  match fields with
  | none => [(1, 0), (width, 0)]
  | some x => (1, 1) :: x

/-- R159: a value, two bytes for each component. -/
def valueFields (v : Value) : List (Nat × Nat) := v.map fun x => (2, x)

/-- R159: the number of a name in the order in which the owning rule names its sort. -/
def numbered {α : Type} [DecidableEq α] (names : List α) (x : α) : Nat × Nat := (1, names.idxOf x)

/-- R159: a set as the sum of its bits, bit 0 first. -/
def bitSet (bits : List Bool) : Nat × Nat := (1, bits.foldr (fun b n => b.toNat + 2 * n) 0)

/-- R159, R72: the groups of a notice. -/
def groupFields (x : PerGroup Bool) : Nat × Nat := bitSet [x.aim, x.colour, x.level]

/-- R151: the fixture condition set. -/
def conditionFields (c : ConditionSet) : Nat × Nat :=
  bitSet [c.motorStall, c.overTemperature, c.emitterFault, c.positionLost, c.fanFault]

/-- R19, R34: the slot record. The levels beyond those sent are free values (log entry 15). -/
def slotFields (n : SlotNo) (x : Slot) : List (Nat × Nat) :=
  let field (width : Nat) (get : Fixture → Nat) := optionally width (x.fixture.map fun f => [(width, get f)])
  [(1, n.val), numbered [.free, .online, .missing] x.state] ++ field 5 (·.uniqueId.toNat) ++ field 1 (·.line.val) ++
    field 1 (·.address) ++ field 2 (·.typeCode.toNat) ++ field 1 (fun f => (f.typeIndex.map Fin.val).getD 255) ++
    field 1 (·.emitters) ++ field 1 (fun f => [Rate.r250, .r500, .r1000, .r2000].idxOf f.maxRate) ++
    field 2 (·.panSpeed) ++ field 2 (·.tiltSpeed) ++
    optionally 8 (x.fixture.map fun f => [(2, f.refPan), (2, f.refTilt), (4, f.refTime.reading.toNat)]) ++
    optionally 18 ((x.fixture.bind (·.lastSent)).map fun y =>
      [(2, y.pan), (2, y.tilt)] ++
        (List.range 5).map (fun k => (2, (y.levels[k]?).getD (Config.unsentLevel k).toNat)) ++
        [(4, y.time.reading.toNat)]) ++
    valueFields x.parked.aim ++ valueFields x.parked.colour ++ valueFields x.parked.level ++
    [conditionFields ((x.fixture.map (·.conditions)).getD ConditionSet.empty),
      (1, (x.fixture.map (·.misses)).getD 0),
      bitSet [x.flags.changed, x.flags.urgent, x.flags.lagging, x.flags.gamut]]

/-- R34: what READ_SLOT adds for a group. -/
def viewFields (v : GroupView) : List (Nat × Nat) :=
  optionally 1 (v.ownerLink.map fun l => [(1, l.index.val)]) ++ valueFields v.present ++ [(1, v.fading.toNat)]

/-- R74: one claim of READ_CLAIMS. -/
def claimFields (g : Group) (v : ClaimView) : List (Nat × Nat) :=
  let c := v.claim
  [(2, c.number), (1, c.link.index.val), (1, c.link.tier), numbered [.live, .shadow] c.role,
    numbered [.owner, .held, .shadow] v.standing, numbered [.oneShot, .loop] c.mode, (4, c.taken.toNat)] ++
    valueFields c.rest ++
    optionally (4 * g.width + 14) (c.running.map fun r =>
      valueFields r.step.target ++
        [(4, r.step.duration), (4, r.step.dwell),
          (1, [Curve.linear, .easeIn, .easeOut, .easeInOut, .snap, .snapEnd].idxOf r.adjusted + 128 * r.step.tie.toNat)] ++
        valueFields r.startValue ++
        [(4, r.startTime.toNat),
          (1, (Config.unstatedCode (if v.phase = some .moving then .moving else .dwelling)).toNat)]) ++
    [(1, c.queue.length), (1, c.lowMark), (1, c.armed.toNat)]

/-- R17, R18, R29, R31, R34, R74, R149: the data of an answer, field by field. -/
def dataFields : AnswerData → List (Nat × Nat)
  | .none => []
  | .entry k => [(1, k)]
  | .keep l limit fade waiting => [(1, l.index.val), (2, limit), (4, fade), (1, waiting)]
  | .part clock safety pair freeClaims freeSteps =>
    [(2, 0x00C0), (1, 1), (4, clock.toNat), numbered [.clear, .holding, .latched] safety,
      (1, pair.activeLink.index.val), (1, pair.override.toNat), (1, pair.askPending.toNat), (4, pair.failoverFade),
      (2, freeClaims), (2, freeSteps)]
  | .slot n record views =>
    slotFields n record ++ viewFields views.aim ++ viewFields views.colour ++ viewFields views.level
  | .claims g views fade =>
    (1, views.length) :: views.flatMap (claimFields g) ++
      optionally (2 * g.width + 8) (fade.map fun x =>
        valueFields x.fromValue ++ [(4, x.start.reading.toNat), (4, x.duration)])
  | .line r onlineCount missingCount =>
    [(1, r.enabled.toNat), (1, r.disablePending.toNat), numbered [.r250, .r500, .r1000, .r2000] r.requested,
      numbered [.r250, .r500, .r1000, .r2000] r.effective, (2, r.replyWindow), (2, r.refreshPeriod), (2, r.joinPeriod),
      numbered [.off, .idle, .sending, .awaiting, .enrolling] r.seq,
      (1, (Config.unstatedCode
        (.operation ([Operation.none, .full, .join, .joining].idxOf r.enrol.operation))).toNat)] ++
      optionally 1 (r.enrol.subState.map fun x => [numbered [.dropping, .calling, .arbitrating, .assigning] x]) ++
      [(1, r.enrol.bound), (1, r.joinSuspended.toNat),
        bitSet [r.conditions.enrolFailed, r.conditions.tableFull, r.conditions.duplicateId, r.conditions.wrongAddress],
        (1, onlineCount), (1, missingCount)] ++
      optionally 4 (r.lastCall.map fun x => [(4, x.reading.toNat)])
  | .type inUse code matrix users =>
    [(1, inUse.toNat), (2, code.toNat)] ++
      matrix.toList.flatMap (fun r => [r.c1, r.c2, r.c3].map fun k => (2, (k % 65536).toNat)) ++ [(1, users)]

/-- Section 12.1, R39, R50, R53, R71, R72, R82, R83, R86, R101, R151, R152, R155, R156: the kind code of a notice, and its
payload, field by field. -/
def noticeFields : Notice → Nat × List (Nat × Nat)
  | .queueLow n g count => (0x40, [(1, n.val), numbered [.aim, .colour, .level] g, (1, count)])
  | .claimDisplaced g l first count =>
    (0x41, [numbered [.aim, .colour, .level] g, (1, l.index.val), (1, first), (1, count)])
  | .claimRestored cause groups first count =>
    (0x42, [numbered [.release, .silence, .pair] cause, groupFields groups, (1, first), (2, count)])
  | .fixtureJoined n ln address code returned =>
    (0x43, [(1, n.val), (1, ln.val), (1, address), (2, code.toNat), (1, returned.toNat)])
  | .fixtureGone n ln address cause =>
    (0x44, [(1, n.val), (1, ln.val), (1, address), numbered [.misses, .dropped, .lineOff] cause])
  | .fixtureCondition n c entered =>
    (0x45, [(1, n.val),
      (1, (Config.unstatedCode (.fixtureCondition
        ([FixtureCondition.motorStall, .overTemperature, .emitterFault, .positionLost, .fanFault].idxOf c))).toNat),
      (1, (Config.unstatedCode (if entered then .entered else .left)).toNat)])
  | .lineCondition ln c entered =>
    (0x46, [(1, ln.val),
      (1, (Config.unstatedCode (.lineCondition
        ([LineCondition.enrolFailed, .tableFull, .duplicateId, .wrongAddress].idxOf c))).toNat),
      (1, (Config.unstatedCode (if entered then .entered else .left)).toNat)])
  | .enrolDone ln bound outcome => (0x47, [(1, ln.val), (1, bound), numbered [.complete, .stopped, .abandoned] outcome])
  | .pairChanged cause active override ask fade =>
    (0x48, [numbered [.give, .failover, .standbyLive, .overrideOn, .overrideOff, .standbySilent] cause,
      (1, active.index.val), (1, override.toNat), (1, ask.toNat), (4, fade)])
  | .handoverAsked l => (0x49, [(1, l.index.val)])
  | .handoverDeclined l => (0x4A, [(1, l.index.val)])
  | .safetyChanged state cause fade =>
    (0x4B, [numbered [.clear, .holding, .latched] state, numbered [.asserted, .released, .cleared] cause, (4, fade)])

/-- R2, R159: the bytes of a control-link frame: the length of what follows up to the CRC, the tag, the kind, the payload,
and the CRC-16 of all of these. -/
def linkFrame (tag kind : Byte) (payload : List Byte) : List Byte :=
  let body := BitVec.ofNat 8 (payload.length + 2) :: tag :: kind :: payload
  body ++ fieldBytes [(2, (crc16 body).toNat)]

/-- R6, R7, R8, R9, R10, R159: a free transmitter of a link that is not SILENT begins the answer, or else the oldest notice,
or else nothing; a frame begun ends when its last byte has gone, an answer then leaves the answer buffer, and the oldest
request that waits is then in hand. The bytes of an answer are its tag and kind, its status, its flags and its data; those
of a notice the tag 0, its kind and its payload; each field is coded as section 12.1 gives. The model's choices: a command
changes nothing where its time or its condition has not come (log entry 4); 1 is on and yes (log entry 32); and the widths
and presence bytes of log entries 12, 15, 33, 34 and 37. The codes of log entry 12 and the levels beyond those sent (log
entry 15) are free values. -/
def Obligations.TransmitterSendsAnswersFirst : Prop :=
  (∀ (s : State) (l : Link), s.inReset = false →
    ((s.link l).state ≠ .silent → (s.link l).sending = none → (s.link l).txReady ≤ s.micros →
      (∀ a, (s.link l).answer = some a → exec (.transmitStart l) s = .next (s.setLink l
        { s.link l with
          sending := some { isAnswer := true, bytes := a.bytes, ends := s.micros + 10 * a.bytes.length } })) ∧
      (∀ n rest, (s.link l).answer = none → (s.link l).notices = n :: rest →
        exec (.transmitStart l) s = .next (s.setLink l
          { s.link l with
            notices := rest
            noticeOverflow := if rest = [] then false else (s.link l).noticeOverflow
            sending := some { isAnswer := false, bytes := n.bytes, ends := s.micros + 10 * n.bytes.length } })) ∧
      ((s.link l).answer = none → (s.link l).notices = [] → exec (.transmitStart l) s = .next s)) ∧
    ((s.link l).state = .silent ∨ (s.link l).sending.isSome = true ∨ s.micros < (s.link l).txReady →
      exec (.transmitStart l) s = .next s) ∧
    (∀ x, (s.link l).sending = some x → x.ends ≤ s.micros →
      ∃ t, exec (.transmitDone l) s = .next t ∧ t = { s with links := t.links } ∧ (∀ k, k ≠ l → t.link k = s.link k) ∧
        t.link l =
          { s.link l with
            sending := none
            txReady := s.micros + 50
            answer := if x.isAnswer then none else (s.link l).answer
            inHand := (t.link l).inHand
            requests := (t.link l).requests } ∧
        (t.link l).waiting = (s.link l).waiting ∧
        ((t.link l).answer = none → (s.link l).inHand = none → (t.link l).inHand = (s.link l).requests.head?) ∧
        ((t.link l).answer.isSome = true ∨ (s.link l).inHand.isSome = true → (t.link l).inHand = (s.link l).inHand)) ∧
    ((∀ x, (s.link l).sending = some x → s.micros < x.ends) → exec (.transmitDone l) s = .next s)) ∧
  (∀ a : Answer, a.bytes = linkFrame a.tag a.kind (fieldBytes (
    [numbered [.ok, .clamped, .busy, .notPermitted, .badSlot, .badRequest, .poolFull, .queueFull, .noClaim, .tableFull,
        .lineOff, .safetyHold] a.status,
      bitSet [a.flags.requestOverrun, a.flags.noticeOverflow, a.flags.safetyActive]] ++ dataFields a.data))) ∧
  ∀ n : Notice, n.bytes = linkFrame 0 (BitVec.ofNat 8 (noticeFields n).1) (fieldBytes (noticeFields n).2)

/-- R5, R6: a frame in hand that makes no request is answered BAD_REQUEST, with nothing else changed; and a kind byte
that is the code of no request makes none. -/
def Obligations.MalformedRequestsAreAnswered : Prop :=
  (∀ (s : State) (l : Link) (f : Frame), s.inReset = false → (s.link l).inHand = some f → f.request = none →
    ∃ t, exec (.unknownKind l) s = .next t ∧ AnsweredOnly s t l f .badRequest .none) ∧
  ∀ f : Frame, (∀ r : Request, f.kind ≠ r.kind) → f.request = none

/-- R5: a request that names a slot outside 0–191 is answered BAD_SLOT, with nothing else changed; a set passes the slot
stage exactly when it names no such slot, and then gives each of its slots once. -/
def Obligations.SlotsOutsideAreRefused : Prop :=
  (∀ set : SlotSet, set.slots = none ↔ ∃ k ∈ set.numbers, 192 ≤ k) ∧
  (∀ (set : SlotSet) (slots : List SlotNo), set.slots = some slots →
    slots.Nodup ∧ ∀ n : SlotNo, n ∈ slots ↔ n.val ∈ set.numbers) ∧
  ∀ (s : State) (l : Link) (f : Frame) (set : SlotSet) (g : Group), set.slots = none →
    (s.InHand l f (.seize set g) → ∃ t, exec (.seize l) s = .next t ∧ AnsweredOnly s t l f .badSlot .none) ∧
    (∀ fade, s.InHand l f (.release set g fade) →
      ∃ t, exec (.release l) s = .next t ∧ AnsweredOnly s t l f .badSlot .none) ∧
    (∀ m k x, s.InHand l f (.step set g .replace m k x) →
      ∃ t, exec (.stepReplace l) s = .next t ∧ AnsweredOnly s t l f .badSlot .none) ∧
    (∀ m k x, s.InHand l f (.step set g .append m k x) →
      ∃ t, exec (.stepAppend l) s = .next t ∧ AnsweredOnly s t l f .badSlot .none) ∧
    (s.InHand l f (.halt set g) → ∃ t, exec (.halt l) s = .next t ∧ AnsweredOnly s t l f .badSlot .none) ∧
    (∀ m k, s.InHand l f (.setMode set g m k) →
      ∃ t, exec (.setMode l) s = .next t ∧ AnsweredOnly s t l f .badSlot .none) ∧
    (s.InHand l f (.forget set) → ∃ t, exec (.forget l) s = .next t ∧ AnsweredOnly s t l f .badSlot .none) ∧
    (∀ n, 192 ≤ n → s.InHand l f (.readSlot n) →
      ∃ t, exec (.readSlot l) s = .next t ∧ AnsweredOnly s t l f .badSlot .none) ∧
    ∀ n, 192 ≤ n → s.InHand l f (.readClaims n g) →
      ∃ t, exec (.readClaims l) s = .next t ∧ AnsweredOnly s t l f .badSlot .none

/-- R16, R84, R88: a setup request from a link that does not hold the ACTIVE role at the taking is answered NOT_PERMITTED,
with nothing else changed; so are the pair requests and SAFE_CLEAR from every link but the one whose role passes them,
and a give from the ACTIVE link too while the STANDBY link is not LIVE. -/
def Obligations.RequestsNeedTheirRole : Prop :=
  (∀ (s : State) (l : Link) (f : Frame), l ≠ s.pair.activeLink →
    (∀ x, s.InHand l f (.setLine x) → ∃ t, exec (.setLine l) s = .next t ∧ AnsweredOnly s t l f .notPermitted .none) ∧
    (∀ ln, s.InHand l f (.enrolLine ln true) →
      ∃ t, exec (.enrolLineFull l) s = .next t ∧ AnsweredOnly s t l f .notPermitted .none) ∧
    (∀ ln, s.InHand l f (.enrolLine ln false) →
      ∃ t, exec (.enrolLineJoin l) s = .next t ∧ AnsweredOnly s t l f .notPermitted .none) ∧
    (∀ code m, s.InHand l f (.setType code m) →
      ∃ t, exec (.setType l) s = .next t ∧ AnsweredOnly s t l f .notPermitted .none) ∧
    (∀ set slots, set.slots = some slots → s.InHand l f (.forget set) →
      ∃ t, exec (.forget l) s = .next t ∧ AnsweredOnly s t l f .notPermitted .none) ∧
    (∀ k limit fade, s.InHand l f (.setLink k limit fade) →
      ∃ t, exec (.setLink l) s = .next t ∧ AnsweredOnly s t l f .notPermitted .none) ∧
    (∀ fade, s.InHand l f (.setPair fade) →
      ∃ t, exec (.setPair l) s = .next t ∧ AnsweredOnly s t l f .notPermitted .none) ∧
    (s.InHand l f .rigClear → ∃ t, exec (.rigClear l) s = .next t ∧ AnsweredOnly s t l f .notPermitted .none)) ∧
  ∀ (s : State) (l : Link) (f : Frame),
    (l ≠ s.pair.standbyLink →
      (s.InHand l f .handoverAsk →
        ∃ t, exec (.handoverAsk l) s = .next t ∧ AnsweredOnly s t l f .notPermitted .none) ∧
      (∀ fade, s.InHand l f (.override true fade) →
        ∃ t, exec (.overrideOn l) s = .next t ∧ AnsweredOnly s t l f .notPermitted .none) ∧
      ∀ fade, s.InHand l f (.override false fade) →
        ∃ t, exec (.overrideOff l) s = .next t ∧ AnsweredOnly s t l f .notPermitted .none) ∧
    (l ≠ s.pair.activeLink →
      (s.InHand l f .handoverDecline →
        ∃ t, exec (.handoverDecline l) s = .next t ∧ AnsweredOnly s t l f .notPermitted .none) ∧
      ∀ fade, s.InHand l f (.safeClear fade) →
        ∃ t, exec (.safeClear l) s = .next t ∧ AnsweredOnly s t l f .notPermitted .none) ∧
    (l ≠ s.pair.activeLink ∨ (s.link s.pair.standbyLink).state ≠ .live →
      ∀ fade, s.InHand l f (.handoverGive fade) →
        ∃ t, exec (.handoverGive l) s = .next t ∧ AnsweredOnly s t l f .notPermitted .none)

/-- R12, R13, R15, R72, R81, R86, R87, R117: a SET_LINK from the ACTIVE link stores the silence limit in 100–5000, and the
loss fade in 0–600,000 on CL2 and CL3; it is answered CLAMPED when a field was out of range. A limit that has already run
silences another LIVE link at once: a feed so silenced loses its claims with the fade stored, and a console, which is then
the STANDBY one, its override and its ask, and the other links hear of it; otherwise no notice comes or goes and nothing
more of any link changes. A SET_PAIR from the ACTIVE link stores the failover fade, lowered to 600,000, and changes nothing
else. -/
def Obligations.LinkAndPairSettingsAreStored : Prop :=
  (∀ (s : State) (l target : Link) (limit fade : Nat) (f : Frame), s.InHand l f (.setLink target limit fade) →
    l = s.pair.activeLink →
    ∃ t, exec (.setLink l) s = .next t ∧
      Answered s t l f (if limit < 100 ∨ 5000 < limit ∨ 600000 < fade then .clamped else .ok) .none ∧
      (let stored : LinkRec :=
         { s.link target with
           silenceLimit := max 100 (min 5000 limit)
           lossFade := if target = .cl2 ∨ target = .cl3 then min fade 600000 else (s.link target).lossFade
           inHand := (if target = l then t.link l else s.link target).inHand
           answer := (if target = l then t.link l else s.link target).answer
           requestOverrun := (if target = l then t.link l else s.link target).requestOverrun }
       (∀ k, k ≠ target → t.link k =
         { s.link k with
           notices := (t.link k).notices
           noticeOverflow := (t.link k).noticeOverflow
           inHand := (if k = l then t.link k else s.link k).inHand
           answer := (if k = l then t.link k else s.link k).answer
           requestOverrun := (if k = l then t.link k else s.link k).requestOverrun }) ∧
       (if target ≠ l ∧ (s.link target).state = .live ∧
           max 100 (min 5000 limit) ≤ elapsed (s.link target).lastGood s.now then
         Silenced stored (t.link target) ∧
         (target = .cl2 ∨ target = .cl3 → s.PoolsSound →
           ClaimsGone s t (fun c => decide (c.link = target)) (min fade 600000) ∧ FixturesKept s t ∧
             t = { s with links := t.links, slots := t.slots, claims := t.claims, expiryList := t.expiryList } ∧
             ∀ k, k ≠ target → Hears (s.link k) (t.link k) (restoredNotices .silence (gainedBy s t k))) ∧
         (target = .cl0 ∨ target = .cl1 → s.RolesSound →
           RolesChanged s t { s.pair with override := false, askPending := false } s.pair.failoverFade ∧
             t = { s with links := t.links, pair := t.pair, slots := t.slots, claims := t.claims } ∧
             ∀ k, k ≠ target → Hears (s.link k) (t.link k)
               (if s.pair.override then
                 restoredNotices .pair (gainedBy s t k) ++ pairNotices t.pair .standbySilent s.pair.failoverFade k
               else if s.pair.askPending then pairNotices t.pair .standbySilent 0 k
               else []))
       else t = { s with links := t.links } ∧ t.link target = stored ∧ Quiet s t))) ∧
  ∀ (s : State) (l : Link) (f : Frame) (fade : Nat), s.InHand l f (.setPair fade) → l = s.pair.activeLink →
    ∃ t, exec (.setPair l) s = .next t ∧
      AnsweredOnly { s with pair := { s.pair with failoverFade := min fade 600000 } } t l f
        (if 600000 < fade then .clamped else .ok) .none

/-- R17: KEEP is answered OK, on any link and in any safety state, with the link's number, its silence limit, its loss
fade and the number of notices waiting, and nothing else changes. -/
def Obligations.KeepReportsItsLink : Prop :=
  ∀ (s : State) (l : Link) (f : Frame), s.InHand l f .keep →
    ∃ t, exec (.keep l) s = .next t ∧
      AnsweredOnly s t l f .ok (.keep l (s.link l).silenceLimit (s.link l).lossFade (s.link l).notices.length)

/-! ## Claims and steps -/

/-- R57, R58: the owner of a stack is a LIVE claim of its slot group; no LIVE claim of the group has a higher tier, and
none of the same tier had its taken stamp set later; and a group with a LIVE claim has an owner. -/
def Obligations.OwnerIsTheHighestLiveClaim : Prop :=
  ∀ (s : State) (n : SlotNo) (g : Group),
    (∀ c, s.owner n g = some c → c ∈ s.claims ∧ c.slot = n ∧ c.group = g ∧ c.role = .live ∧
      ∀ d ∈ s.claims, d.slot = n → d.group = g → d.role = .live →
        c.link.tier ≤ d.link.tier ∧ (d.link.tier = c.link.tier → d.takenOrder ≤ c.takenOrder)) ∧
    (s.owner n g = none → ∀ d ∈ s.claims, d.slot = n → d.group = g → d.role = .shadow)

/-- R56: `c` is the claim that the link has created on slot `n`, one of `slots`, and takes the lowest number free when the
slot's turn comes: the slots are served in the order of the set (log entry 25: the model's inference). -/
def TakesLowestRecord (s t : State) (l : Link) (g : Group) (slots : List SlotNo) (n : SlotNo) (c : Claim) : Prop :=
  let used := s.claims.map (·.number) ++
    (slots.takeWhile (fun m => decide (m ≠ n))).filterMap (fun m => (t.claimOf l m g).map (·.number))
  c.number ∉ used ∧ ∀ j, j < c.number → j ∈ used

/-- R56, R57, R60, R61, R62, R64, R71, R90: a SEIZE that the claim pool cannot cover is answered POOL_FULL with nothing else
changed. Any other is answered OK, and on each of its slots the link then holds a claim that rests at the group's present
value, with no step, no expiry entry and the present reading as its taken stamp, set later than every stamp before; a new
claim has the lowest free number (in the order of the set, log entry 25) and the role the pair record gives its link; a
group the claim owns has no crossfade record, and CHANGED is set where it was not the owner before; no group's value jumps;
each link that lost groups hears one CLAIM_DISPLACED, with the lowest slot and the count; and no other claim or expiry
entry, no fixture and no parked value changes. -/
def Obligations.SeizeHoldsThePresentLook : Prop :=
  ∀ (s : State) (l : Link) (f : Frame) (set : SlotSet) (g : Group) (slots : List SlotNo), s.PoolsSound →
    s.InHand l f (.seize set g) → set.slots = some slots →
    if 1024 < s.claims.length + (slots.filter (fun n => (s.claimOf l n g).isNone)).length then
      ∃ t, exec (.seize l) s = .next t ∧ AnsweredOnly s t l f .poolFull .none
    else
      ∃ t, exec (.seize l) s = .next t ∧ Answered s t l f .ok .none ∧ LinksKept s t l ∧ FixturesKept s t ∧
        (∀ k, Hears (s.link k) (t.link k) (displacedNotices g l (lostBy s t l k g slots))) ∧
        t = { s with links := t.links, slots := t.slots, claims := t.claims, stampCount := t.stampCount,
                     expiryList := t.expiryList } ∧
        (∀ n ∈ slots, t.present n g = s.present n g ∧
          ∃ c, t.claimOf l n g = some c ∧ c.rest = s.present n g ∧ c.running = none ∧ c.queue = [] ∧ c.taken = s.now ∧
            (∀ d ∈ s.claims, d.takenOrder < c.takenOrder) ∧
            (match s.claimOf l n g with
              | none => TakesLowestRecord s t l g slots n c ∧ c.role = s.pair.roleFor l ∧ c.mode = .oneShot ∧
                  c.lowMark = 0 ∧ c.armed = true
              | some d => c.number = d.number ∧ c.role = d.role ∧ c.mode = d.mode ∧ c.lowMark = d.lowMark ∧
                  c.armed = d.armed) ∧
            t.slot n =
              { s.slot n with
                fades := (s.slot n).fades.set g
                  (if t.ownerNumber n g = some c.number then none else s.runningFade n g)
                flags := { (s.slot n).flags with
                  changed := (s.slot n).flags.changed ||
                    (decide (t.ownerNumber n g = some c.number) && decide (s.ownerNumber n g ≠ some c.number)) } }) ∧
        t.expiryList =
          s.expiryList.filter (fun e => slots.all fun n => decide ((s.claimOf l n g).map (·.number) ≠ some e.claim)) ∧
        (∀ k n h, ¬(k = l ∧ n ∈ slots ∧ h = g) → t.claimOf k n h = s.claimOf k n h) ∧
        (∀ n, (t.slot n).parked = (s.slot n).parked) ∧ ∀ n, n ∉ slots → t.slot n = s.slot n

/-- R65, R66, R67, R72, R90, R117: a RELEASE of a set in which the link holds no claim on the group is answered NO_CLAIM
with nothing else changed. Any other removes exactly the link's claims on the group in the set, with their steps and their
expiry entries. A group whose owner was removed fades from its present value over the fade, toward what is left of its
stack, or holds it as its parked value where nothing is left; a group whose removed claim was not the owner keeps its look;
every other slot and group is as it was; and each link that gained groups hears one CLAIM_RESTORED of cause RELEASE. -/
def Obligations.ReleaseRemovesClaims : Prop :=
  ∀ (s : State) (l : Link) (f : Frame) (set : SlotSet) (g : Group) (fade : Nat) (slots : List SlotNo), s.PoolsSound →
    s.InHand l f (.release set g fade) → set.slots = some slots →
    if slots.all (fun n => (s.claimOf l n g).isNone) then
      ∃ t, exec (.release l) s = .next t ∧ AnsweredOnly s t l f .noClaim .none
    else
      ∃ t, exec (.release l) s = .next t ∧ Answered s t l f (if 600000 < fade then .clamped else .ok) .none ∧
        LinksKept s t l ∧ FixturesKept s t ∧
        t = { s with links := t.links, slots := t.slots, claims := t.claims, expiryList := t.expiryList } ∧
        ClaimsGone s t (fun c => decide (c.link = l) && decide (c.slot ∈ slots) && decide (c.group = g))
          (min fade 600000) ∧
        (∀ k, Hears (s.link k) (t.link k) (restoredNotices .release (gainedBy s t k))) ∧
        ∀ n, (n ∉ slots ∨ s.claimOf l n g = none) → t.slot n = s.slot n

/-- The fields of a step, without the number of its record. -/
def fieldsOf (x : Step) : StepFields :=
  { target := x.target, duration := x.duration, dwell := x.dwell, curve := x.curve, tie := x.tie }

/-- R92, R117: the fields of a step with its times lowered to 600,000. -/
def lowered (x : StepFields) : StepFields :=
  { x with duration := min x.duration 600000, dwell := min x.dwell 600000 }

/-- R97, R98, R99: what a retirement leaves where the steps of a list wait, oldest first: each step of no time retires as
soon as it has started, so that what is left is the step that retired last, and the steps that then remain, of which the
first runs. -/
def settled {α : Type} (instant : α → Bool) : α → List α → α × List α
  | last, [] => (last, [])
  | last, x :: rest => if instant x then settled instant x rest else (last, x :: rest)

/-- R101: QUEUE_LOW of a claim of a mode, a low mark and an arming, when the steps of `waiting` left its pending queue one
after another until those of `left` remained, the first of which runs: the first time that the count left is at or below
the low mark. -/
def lowNotices (mode : Mode) (lowMark : Nat) (armed : Bool) (n : SlotNo) (g : Group) {α : Type} (waiting left : List α) :
    List Notice :=
  if mode = .oneShot ∧ armed = true ∧ waiting ≠ [] ∧ left.length - 1 ≤ lowMark then
    [.queueLow n g (min lowMark (waiting.length - 1))]
  else []

/-- R97: whether a step of a request has no time at all. -/
def noTime (x : StepFields) : Bool := decide (x.duration = 0) && decide (x.dwell = 0)

/-- R94, R97, R101: QUEUE_LOW of the link's claim on a group when a STEP starts its first step on it: none unless that step
has no time and retires within the taking. -/
def lowAtStart (s : State) (l : Link) (n : SlotNo) (g : Group) (mode : Option Mode) (low : Option Nat)
    (x : StepFields) (rest : List StepFields) : List Notice :=
  let lowMark := low.getD (((s.claimOf l n g).map (·.lowMark)).getD 0)
  if noTime x then
    lowNotices (mode.getD (((s.claimOf l n g).map (·.mode)).getD .oneShot)) lowMark
      ((((s.claimOf l n g).map (·.armed)).getD true) || decide (lowMark < rest.length)) n g rest (settled noTime x rest).2
  else []

/-- R56, R57, R61, R63, R93, R94, R95, R96 (its second sentence), R97, R100, R101, R117: what a STEP on `slots` leaves
of the link's claim on a group when it starts its first step `x` on it. The claim's taken stamp was set later than every
stamp before; a new claim has the lowest free number (log entry 25); its expiry entry is that of its running step. The
claim runs `x` from the present reading, from the group's present value where the claim is taken by it and from the
claim's own value otherwise, with its ease-in kept, and the rest wait in order; but a step of no time retires at once,
and the next starts from its target, or the claim rests there. The mode, the low mark and the arming are as R94 gives
them, and then as R101 does. A claim taken ends the crossfade record of its group. -/
def StepStarted (s t : State) (l : Link) (slots : List SlotNo) (n : SlotNo) (g : Group) (mode : Option Mode)
    (low : Option Nat) (x : StepFields) (rest : List StepFields) : Prop :=
  ∃ c, t.claimOf l n g = some c ∧ c.taken = s.now ∧ (∀ d ∈ s.claims, d.takenOrder < c.takenOrder) ∧
    t.expiryList.filter (fun e => decide (e.claim = c.number)) =
      (c.running.map fun r => ({ claim := c.number, time := r.expiry } : ExpiryEntry)).toList ∧
    (match s.claimOf l n g with
      | none => TakesLowestRecord s t l g slots n c ∧ c.role = s.pair.roleFor l
      | some d => c.number = d.number ∧ c.role = d.role) ∧
    (let taken : Prop := t.ownerNumber n g = some c.number ∧ s.ownerNumber n g ≠ some c.number
     let left := settled noTime x rest
     let armed := (((s.claimOf l n g).map (·.armed)).getD true) || decide (c.lowMark < rest.length)
     let rested := ((s.claimOf l n g).map (·.rest)).getD (s.present n g)
     c.mode = mode.getD (((s.claimOf l n g).map (·.mode)).getD .oneShot) ∧
     c.lowMark = low.getD (((s.claimOf l n g).map (·.lowMark)).getD 0) ∧
     c.armed = (armed && (lowAtStart s l n g mode low x rest).isEmpty) ∧
     (noTime x = false →
       c.rest = rested ∧ c.queue.map fieldsOf = rest.map lowered ∧
       ∃ r, c.running = some r ∧ fieldsOf r.step = lowered x ∧ r.adjusted = x.curve.adjust false x.tie ∧
        r.startTime = s.now ∧
        r.expiry = s.now + BitVec.ofNat 32 (min x.duration 600000 + min x.dwell 600000) ∧
        (taken → r.startValue = s.present n g) ∧
        (¬taken → r.startValue =
          match s.claimOf l n g with
          | none => s.present n g
          | some d => d.ownValue s.now)) ∧
     (noTime x = true →
       match left.2 with
       | [] => c.running = none ∧ c.queue = [] ∧ c.rest = left.1.target
       | y :: more =>
         c.rest = rested ∧ c.queue.map fieldsOf = more.map lowered ∧
         ∃ r, c.running = some r ∧ fieldsOf r.step = lowered y ∧ r.adjusted = y.curve.adjust left.1.tie y.tie ∧
          r.startTime = s.now ∧
          r.expiry = s.now + BitVec.ofNat 32 (min y.duration 600000 + min y.dwell 600000) ∧
          r.startValue = left.1.target) ∧
     (taken → (t.slot n).fades = (s.slot n).fades.set g none) ∧
     (¬taken → (t.slot n).fades =
       (s.slot n).fades.set g (if (s.claimOf l n g).isSome then s.fade n g else s.runningFade n g))) ∧
    (t.slot n).flags.changed = true

/-- R97: the expiry entries of every claim but the link's on the group in the slots are as they were, in their order. -/
def EntriesKept (s t : State) (l : Link) (g : Group) (slots : List SlotNo) : Prop :=
  let others (e : ExpiryEntry) : Bool := slots.all fun n => decide ((t.claimOf l n g).map (·.number) ≠ some e.claim)
  t.expiryList.filter others = s.expiryList.filter others

/-- R97: entries that share one expiry time have gone into a list: behind every entry that expires no later, and before every
entry that expires later. -/
def placed (now time : Reading) (entries others : List ExpiryEntry) : List ExpiryEntry :=
  others.filter (fun d => decide (timeLeft now d.time ≤ timeLeft now time)) ++ entries ++
    others.filter (fun d => decide (timeLeft now time < timeLeft now d.time))

/-- R97: where the expiry entries of a STEP go that starts its steps on the link's claims on the group in `slots`: those
claims' entries of before are gone, and the new ones, in the order of the slots (log entry 25), stand at the tail of the
entries with the same expiry time, which is that of the first step of some time. -/
def EntriesPlaced (s t : State) (l : Link) (g : Group) (slots : List SlotNo) (steps : List StepFields) : Prop :=
  let others := s.expiryList.filter fun e =>
    slots.all fun n => decide ((s.claimOf l n g).map (·.number) ≠ some e.claim)
  s.ExpiriesNear → s.ExpiriesInOrder →
    t.expiryList =
      match steps.find? (fun x => !noTime x) with
      | none => others
      | some x =>
        let time := s.now + BitVec.ofNat 32 (min x.duration 600000 + min x.dwell 600000)
        placed s.now time (slots.filterMap fun n => (t.claimOf l n g).map fun c => { claim := c.number, time := time }) others

/-- What the pools must hold for a STEP of `count` steps on the slots (R93, tests 1 and 2): records for the claims it
creates, and for the steps it copies; `returned` of those in use count as free. -/
def PoolsCover (s : State) (l : Link) (g : Group) (slots : List SlotNo) (count returned : Nat) : Prop :=
  s.claims.length + (slots.filter (fun n => (s.claimOf l n g).isNone)).length ≤ 1024 ∧
    s.stepRecords.length + count * slots.length ≤ 4096 + returned

/-- The step records of the link's claims on the group in the slots (R93). -/
def recordsHeld (s : State) (l : Link) (g : Group) (slots : List SlotNo) : Nat :=
  (slots.map (fun n => (((s.claimOf l n g).map Claim.records).getD []).length)).sum

/-- Whether a time of a step of the request is above 600,000 (R92). -/
def anyTimeLowered (steps : List StepFields) : Bool :=
  steps.any (fun x => decide (600000 < x.duration) || decide (600000 < x.dwell))

/-- R56, R57, R63, R71, R93, R94, R95, R97, R98, R100, R101, R117: a STEP with option REPLACE that the pools cover is
answered OK, or CLAMPED when a time was lowered. On each of its slots the link then holds a claim that has started the
first step, steps of no time retiring at once; new claims take the lowest free numbers in the order of the set (log
entry 25). Each link that lost groups hears one CLAIM_DISPLACED, and the sender QUEUE_LOW where steps of no time brought
a pending queue down to its low mark, slot by slot in no order that is stated here (log entry 14). The new expiry entries
go behind those that expire no later and before those that expire later, where the list was in its order and no entry
more than 2^30 ms overdue. No claim of another link or group or slot changes, and no expiry entry of one. -/
def Obligations.StepReplaceStartsAtOnce : Prop :=
  ∀ (s : State) (l : Link) (f : Frame) (set : SlotSet) (g : Group) (mode : Option Mode) (low : Option Nat)
    (x : StepFields) (rest : List StepFields) (slots : List SlotNo), s.PoolsSound →
    s.InHand l f (.step set g .replace mode low (x :: rest)) → set.slots = some slots →
    PoolsCover s l g slots (rest.length + 1) (recordsHeld s l g slots) →
    ∃ t, exec (.stepReplace l) s = .next t ∧
      Answered s t l f (if anyTimeLowered (x :: rest) then .clamped else .ok) .none ∧ LinksKept s t l ∧
      FixturesKept s t ∧
      (∀ k, ∃ ns, ns.Perm (if k = l then slots.flatMap (fun n => lowAtStart s l n g mode low x rest) else []) ∧
        Hears (s.link k) (t.link k) (displacedNotices g l (lostBy s t l k g slots) ++ ns)) ∧
      t = { s with links := t.links, slots := t.slots, claims := t.claims, stampCount := t.stampCount,
                   expiryList := t.expiryList } ∧
      (∀ n ∈ slots, StepStarted s t l slots n g mode low x rest) ∧
      EntriesKept s t l g slots ∧ EntriesPlaced s t l g slots (x :: rest) ∧
      (∀ k n h, ¬(k = l ∧ n ∈ slots ∧ h = g) → t.claimOf k n h = s.claimOf k n h) ∧
      (∀ n, (t.slot n).parked = (s.slot n).parked) ∧ ∀ n, n ∉ slots → t.slot n = s.slot n

/-- R56, R57, R63, R71, R93, R94, R96, R97, R98, R100, R101, R117: a STEP with option APPEND that passes the tests of
R93 is answered OK, or CLAMPED when a time was lowered. A claim of the link that runs a step keeps it, its taken stamp
and its place, and gains the steps at the tail of its pending queue; a claim that runs none, or a new one, starts the
first step as a REPLACE does, its expiry entry taking its place as there, and the links hear of it as they do of a REPLACE
(log entries 14 and 25). Every other claim and every other expiry entry stays as it was. -/
def Obligations.StepAppendWaitsItsTurn : Prop :=
  ∀ (s : State) (l : Link) (f : Frame) (set : SlotSet) (g : Group) (mode : Option Mode) (low : Option Nat)
    (x : StepFields) (rest : List StepFields) (slots : List SlotNo), s.PoolsSound →
    s.InHand l f (.step set g .append mode low (x :: rest)) → set.slots = some slots →
    PoolsCover s l g slots (rest.length + 1) 0 →
    (∀ n ∈ slots, ∀ c, s.claimOf l n g = some c → c.running.isSome = true → c.queue.length + (rest.length + 1) ≤ 8) →
    ∃ t, exec (.stepAppend l) s = .next t ∧
      Answered s t l f (if anyTimeLowered (x :: rest) then .clamped else .ok) .none ∧ LinksKept s t l ∧
      FixturesKept s t ∧
      (∀ k, ∃ ns, ns.Perm (if k = l then
          (slots.filter (fun n => ((s.claimOf l n g).bind (·.running)).isNone)).flatMap
            (fun n => lowAtStart s l n g mode low x rest)
        else []) ∧ Hears (s.link k) (t.link k) (displacedNotices g l (lostBy s t l k g slots) ++ ns)) ∧
      t = { s with links := t.links, slots := t.slots, claims := t.claims, stampCount := t.stampCount,
                   expiryList := t.expiryList } ∧
      (∀ n ∈ slots, ∀ d, s.claimOf l n g = some d → d.running.isSome = true → t.slot n = s.slot n ∧
        ∃ added, added.map fieldsOf = (x :: rest).map lowered ∧
          t.claimOf l n g = some
            { d with
              queue := d.queue ++ added
              mode := mode.getD d.mode
              lowMark := low.getD d.lowMark
              armed := d.armed || decide (low.getD d.lowMark < d.queue.length + (rest.length + 1)) }) ∧
      (∀ n ∈ slots, (∀ d, s.claimOf l n g = some d → d.running = none) → StepStarted s t l slots n g mode low x rest) ∧
      EntriesKept s t l g (slots.filter fun n => ((s.claimOf l n g).bind (·.running)).isNone) ∧
      EntriesPlaced s t l g (slots.filter fun n => ((s.claimOf l n g).bind (·.running)).isNone) (x :: rest) ∧
      (∀ k n h, ¬(k = l ∧ n ∈ slots ∧ h = g) → t.claimOf k n h = s.claimOf k n h) ∧
      (∀ n, (t.slot n).parked = (s.slot n).parked) ∧ ∀ n, n ∉ slots → t.slot n = s.slot n

/-- R93: a STEP that fails the test of the claim pool or of the step pool is answered POOL_FULL, and an APPEND that
passes them but would take a pending queue past 8 steps is answered QUEUE_FULL; nothing else changes. -/
def Obligations.StepIsRefusedWhole : Prop :=
  ∀ (s : State) (l : Link) (f : Frame) (set : SlotSet) (g : Group) (mode : Option Mode) (low : Option Nat)
    (steps : List StepFields) (slots : List SlotNo), s.PoolsSound → set.slots = some slots →
    (s.InHand l f (.step set g .replace mode low steps) →
      ¬PoolsCover s l g slots steps.length (recordsHeld s l g slots) →
      ∃ t, exec (.stepReplace l) s = .next t ∧ AnsweredOnly s t l f .poolFull .none) ∧
    (s.InHand l f (.step set g .append mode low steps) →
      (¬PoolsCover s l g slots steps.length 0 →
        ∃ t, exec (.stepAppend l) s = .next t ∧ AnsweredOnly s t l f .poolFull .none) ∧
      (PoolsCover s l g slots steps.length 0 →
        (∃ n ∈ slots, ∃ c, s.claimOf l n g = some c ∧ c.running.isSome = true ∧ 8 < c.queue.length + steps.length) →
        ∃ t, exec (.stepAppend l) s = .next t ∧ AnsweredOnly s t l f .queueFull .none))

/-- R102: a HALT of a set in which the link holds no claim on the group is answered NO_CLAIM with nothing else changed.
Any other is answered OK; every claim of the link on the group in the set that runs a step then rests at the value it
had, with no step, no pending step and no expiry entry, and its slot, and no other, has CHANGED set; a claim at rest, the
rest of every claim's record, every other claim and expiry entry and every crossfade record stay as they were. -/
def Obligations.HaltFreezesClaims : Prop :=
  ∀ (s : State) (l : Link) (f : Frame) (set : SlotSet) (g : Group) (slots : List SlotNo), s.PoolsSound →
    s.InHand l f (.halt set g) → set.slots = some slots →
    if slots.all (fun n => (s.claimOf l n g).isNone) then
      ∃ t, exec (.halt l) s = .next t ∧ AnsweredOnly s t l f .noClaim .none
    else
      ∃ t, exec (.halt l) s = .next t ∧ Answered s t l f .ok .none ∧ LinksKept s t l ∧
        Quiet s t ∧ FixturesKept s t ∧
        t = { s with links := t.links, slots := t.slots, claims := t.claims, expiryList := t.expiryList } ∧
        (∀ n ∈ slots, ∀ c, s.claimOf l n g = some c →
          t.claimOf l n g =
            some (if c.running.isSome then { c with running := none, queue := [], rest := c.ownValue s.now } else c) ∧
          (c.running.isSome = true → (t.slot n).flags.changed = true ∧ ∀ e ∈ t.expiryList, e.claim ≠ c.number)) ∧
        (∀ n, (t.slot n).flags.changed = ((s.slot n).flags.changed ||
          (decide (n ∈ slots) && ((s.claimOf l n g).bind (·.running)).isSome))) ∧
        t.expiryList =
          s.expiryList.filter (fun e => slots.all fun n => decide ((s.claimOf l n g).map (·.number) ≠ some e.claim)) ∧
        (∀ k n h, ¬(k = l ∧ n ∈ slots ∧ h = g) → t.claimOf k n h = s.claimOf k n h) ∧
        ∀ n, (t.slot n).parked = (s.slot n).parked ∧ (t.slot n).fades = (s.slot n).fades

/-- R94, R103: a SET_MODE of a set in which the link holds no claim on the group is answered NO_CLAIM with nothing else
changed. Any other is answered OK, and every claim of the link on the group in the set takes the mode and the low mark,
and is armed where its pending count is above the low mark; nothing else changes, no slot and no other claim. -/
def Obligations.SetModeChangesClaims : Prop :=
  ∀ (s : State) (l : Link) (f : Frame) (set : SlotSet) (g : Group) (mode : Mode) (low : Nat) (slots : List SlotNo),
    s.PoolsSound → s.InHand l f (.setMode set g mode low) → set.slots = some slots →
    if slots.all (fun n => (s.claimOf l n g).isNone) then
      ∃ t, exec (.setMode l) s = .next t ∧ AnsweredOnly s t l f .noClaim .none
    else
      ∃ t, exec (.setMode l) s = .next t ∧ Answered s t l f .ok .none ∧ LinksKept s t l ∧
        Quiet s t ∧ t = { s with links := t.links, claims := t.claims } ∧
        t.claims = s.claims.map (fun c =>
          if c.link = l ∧ c.slot ∈ slots ∧ c.group = g then
            { c with mode := mode, lowMark := low, armed := c.armed || decide (low < c.queue.length) }
          else c)

/-- R97, R98, R99, R100, R101: when the head of the expiry list has fallen due, its claim's running step retires. In LOOP
mode it has first joined the tail of the pending queue, where there is room. With nothing pending the claim rests at the
step's target. Otherwise the oldest pending step starts, at the expiry time of the step that retires and from its target,
its ease-in dropped by that step's tie, and steps of no time retire at once and so on, until a step of some time runs or
the claim rests. In ONE_SHOT mode QUEUE_LOW is raised to the claim's link the first time that the count left is at or below
an armed low mark, which disarms it. The claim's expiry entry follows its step, behind every entry that expires no later and
before every one that expires later, where the list was in its order, no entry more than 2^30 ms overdue, and every time in
range; and no other claim or entry, no parked value and no crossfade record changes. The adjusted curve is what R100's table gives. A head that is not due, and an empty list,
change nothing: that is the model's choice (log entry 4). -/
def Obligations.StepsRetireInTurn : Prop :=
  (∀ (s : State) (e : ExpiryEntry) (more : List ExpiryEntry) (c : Claim) (r : RunningStep), s.PoolsSound →
    s.inReset = false → s.expiryList = e :: more → elapsed e.time s.now < 2147483648 → c ∈ s.claims →
    c.number = e.claim → c.running = some r →
    ∃ t, exec .stepExpiry s = .next t ∧ FixturesKept s t ∧ LinksHear s t ∧
      t = { s with links := t.links, slots := t.slots, claims := t.claims, expiryList := t.expiryList } ∧
      (∀ n, (t.slot n).parked = (s.slot n).parked ∧ (t.slot n).fades = (s.slot n).fades) ∧
      t.claims.filter (fun d => decide (d.number ≠ c.number)) = s.claims.filter (fun d => decide (d.number ≠ c.number)) ∧
      t.expiryList.filter (fun d => decide (d.claim ≠ c.number)) = more ∧
      (let waiting := if c.mode = .loop ∧ c.queue.length < 8 then c.queue ++ [r.step] else c.queue
       let left := settled (fun x => noTime (fieldsOf x)) r.step waiting
       let lows := lowNotices c.mode c.lowMark c.armed c.slot c.group waiting left.2
       (∀ n, (t.slot n).flags.changed = ((s.slot n).flags.changed || (decide (n = c.slot) && !waiting.isEmpty))) ∧
       (∀ k, Hears (s.link k) (t.link k) (if k = c.link then lows else [])) ∧
       (match left.2 with
        | [] =>
          t.claim c.number = some
            { c with running := none, queue := [], rest := left.1.target, armed := c.armed && lows.isEmpty } ∧
          t.expiryList = more
        | x :: rest =>
          let expiry := r.expiry + BitVec.ofNat 32 (x.duration + x.dwell)
          t.claim c.number = some
            { c with
              queue := rest
              armed := c.armed && lows.isEmpty
              running := some
                { step := x, startValue := left.1.target, startTime := r.expiry
                  adjusted := x.curve.adjust left.1.tie x.tie, expiry := expiry } } ∧
          t.expiryList.filter (fun d => decide (d.claim = c.number)) = [{ claim := c.number, time := expiry }] ∧
          (s.ValuesSound → s.ExpiriesNear → s.ExpiriesInOrder →
            t.expiryList = placed s.now expiry [{ claim := c.number, time := expiry }] more)))) ∧
  (∀ inDropped outDropped : Bool,
    Curve.linear.adjust inDropped outDropped = .linear ∧ Curve.snap.adjust inDropped outDropped = .snap ∧
      Curve.snapEnd.adjust inDropped outDropped = .snapEnd ∧
      Curve.easeIn.adjust inDropped outDropped = (if inDropped then .linear else .easeIn) ∧
      Curve.easeOut.adjust inDropped outDropped = (if outDropped then .linear else .easeOut) ∧
      Curve.easeInOut.adjust inDropped outDropped =
        (if inDropped then (if outDropped then .linear else .easeOut) else if outDropped then .easeIn else .easeInOut)) ∧
  (∀ (s : State) (e : ExpiryEntry) (more : List ExpiryEntry), s.inReset = false → s.expiryList = e :: more →
    2147483648 ≤ elapsed e.time s.now → exec .stepExpiry s = .next s) ∧
  ∀ s : State, s.inReset = false → s.expiryList = [] → exec .stepExpiry s = .next s

/-- R35, R75: a RIG_CLEAR from the ACTIVE link removes every claim, every step and every crossfade record, and parks
every group of every slot at its present value, so that no group's value changes; CHANGED is set on every bound slot, no
notice is raised, and everything else is as it was. -/
def Obligations.RigClearParksEveryGroup : Prop :=
  ∀ (s : State) (l : Link) (f : Frame), s.InHand l f .rigClear → l = s.pair.activeLink →
    ∃ t, exec (.rigClear l) s = .next t ∧ Answered s t l f .ok .none ∧ LinksKept s t l ∧
      Quiet s t ∧ FixturesKept s t ∧
      t = { s with links := t.links, slots := t.slots, claims := [], expiryList := [] } ∧
      ∀ n, (∀ g, (t.slot n).parked.get g = s.present n g ∧ (t.slot n).fades.get g = none ∧
          t.present n g = s.present n g) ∧
        (t.slot n).flags.changed = ((s.slot n).flags.changed || (s.slot n).fixture.isSome)

/-! ## Profile arithmetic, aim, colour and level -/

/-- R110: the fraction of a move, for a duration of at least 1 and an elapsed time below it. -/
def Obligations.FractionOfAMove : Prop :=
  ∀ e d : Nat, 1 ≤ d → e < d →
    fraction e d = e * 65536 / d ∧ fraction e d ≤ 65535 ∧ (d ≤ 600000 → e * 65536 < 39321600000) ∧
      (∀ e', e' ≤ e → fraction e' d ≤ fraction e d) ∧ (fraction e d = 0 ↔ e * 65536 < d) ∧
      (65537 ≤ d → e ≤ 1 → fraction e d = 0) ∧ (d ≤ 600000 → 10 ≤ e → 1 ≤ fraction e d) ∧
      fraction 9 600000 = 0 ∧
      ∀ (r : RunningStep) (t : Reading), elapsed r.startTime t = r.step.duration → r.value t = r.step.target

/-- R111: the shaped fraction of every curve that has one, its range, and that it never falls. -/
def Obligations.ShapedFraction : Prop :=
  ∀ f : Nat, f ≤ 65535 →
    shape .linear f = f ∧ shape .easeIn f = f * f / 65536 ∧
    shape .easeOut f = 65536 - ((65536 - f) * (65536 - f) + 65535) / 65536 ∧
    shape .easeInOut f = f * f * (196608 - 2 * f) / 4294967296 ∧
    f * f * (196608 - 2 * f) ≤ 281474976710656 ∧
    shape .easeIn f ≤ 65534 ∧ shape .easeOut f ≤ 65535 ∧ shape .easeInOut f ≤ 65535 ∧
    1 ≤ (65536 - f) * (65536 - f) ∧ (65536 - f) * (65536 - f) ≤ 4294967296 ∧
    1 ≤ ((65536 - f) * (65536 - f) + 65535) / 65536 ∧ ((65536 - f) * (65536 - f) + 65535) / 65536 ≤ 65536 ∧
    shape .easeInOut 0 = 0 ∧ shape .easeInOut 65535 = 65535 ∧
    ∀ (c : Curve) (h : Nat), h ≤ f → shape c h ≤ shape c f

/-- R112: the value of a component, between its start value and its target, the exact value rounded to the nearest whole
number with a half rounded upward, and moving from the start value toward the target without turning back. -/
def Obligations.InterpolatedValue : Prop :=
  ∀ start target g : Nat, start ≤ 65535 → target ≤ 65535 → g ≤ 65535 →
    ((interpolate start target g : Nat) : Int) = start + (((target : Int) - start) * g + 32768) / 65536 ∧
    min start target ≤ interpolate start target g ∧ interpolate start target g ≤ max start target ∧
    2 * (((interpolate start target g : Int) - start) * 65536 - ((target : Int) - start) * g) ≤ 65536 ∧
    -65536 < 2 * (((interpolate start target g : Int) - start) * 65536 - ((target : Int) - start) * g) ∧
    ∀ h, h ≤ g →
      (start ≤ target → interpolate start target h ≤ interpolate start target g) ∧
      (target ≤ start → interpolate start target g ≤ interpolate start target h)

/-- R120: what one of pan and tilt emits, and when it is limited, for a wanted move w = P − R and an allowed move A. -/
def Obligations.AimMoveIsLimited : Prop :=
  ∀ present reference allowed : Nat, present ≤ 65535 → reference ≤ 65535 →
    (let w : Int := (present : Int) - reference
     (-(allowed : Int) ≤ w ∧ w ≤ allowed →
      limitMove present reference allowed = present ∧ isLimited present reference allowed = false) ∧
     ((allowed : Int) < w →
      (limitMove present reference allowed : Int) = reference + allowed ∧ isLimited present reference allowed = true) ∧
     (w < -(allowed : Int) →
      (limitMove present reference allowed : Int) = reference - allowed ∧ isLimited present reference allowed = true)) ∧
    min present reference ≤ limitMove present reference allowed ∧
    limitMove present reference allowed ≤ max present reference ∧
    (limitMove present reference allowed = present ∨ isLimited present reference allowed = true)

/-- R129, R130, R131: the raw levels of a build: the sums floored, negatives made 0; and gamut scaling, which is needed
exactly when the largest is above 65535, then makes each level floor(raw × 65535 / largest), so that the largest comes to
exactly 65535 and none above it, 0 stays at 0 and no emitter passes another. -/
def Obligations.RawLevelsAreBroughtIntoGamut : Prop :=
  (∀ (row : MatrixRow) (c1 c2 c3 : Nat),
    16384 * rawLevel row c1 c2 c3 ≤ row.c1 * c1 + row.c2 * c2 + row.c3 * c3 ∧
      row.c1 * c1 + row.c2 * c2 + row.c3 * c3 < 16384 * (rawLevel row c1 c2 c3 + 1)) ∧
  (∀ (m : Matrix) (emitters c1 c2 c3 : Nat) (k : Nat) (row : MatrixRow), m.toList[k]? = some row → k < emitters →
    (rawLevels m emitters c1 c2 c3)[k]? = some (rawLevel row c1 c2 c3).toNat) ∧
  ∀ raws : List Nat,
    (outOfGamut raws = true ↔ ∃ raw ∈ raws, 65535 < raw) ∧
    (outOfGamut raws = false → gamutScale raws = raws) ∧
    (outOfGamut raws = true → 65535 ∈ gamutScale raws ∧
      ∃ most ∈ raws, (∀ raw ∈ raws, raw ≤ most) ∧ gamutScale raws = raws.map (fun raw => raw * 65535 / most)) ∧
    (gamutScale raws).length = raws.length ∧
    (∀ level ∈ gamutScale raws, level ≤ 65535) ∧
    ∀ i j a b a' b' : Nat, raws[i]? = some a → raws[j]? = some b → (gamutScale raws)[i]? = some a' →
      (gamutScale raws)[j]? = some b' → (a ≤ b → a' ≤ b') ∧ (a = 0 → a' = 0)

/-- R132: level scaling gives the exact product over 65535 rounded to the nearest whole number, never more than the
level, the level itself from a raw level of 65535, 0 from a raw level or a level of 0, and never falls as the level
rises. -/
def Obligations.EmitterLevelsFollowLevel : Prop :=
  ∀ raw level : Nat, raw ≤ 65535 → level ≤ 65535 →
    scaleLevel level raw = (raw * level + 32767) / 65535 ∧ raw * level ≤ 4294836225 ∧
    2 * (65535 * (scaleLevel level raw : Int) - raw * level) < 65535 ∧
    -65535 < 2 * (65535 * (scaleLevel level raw : Int) - raw * level) ∧
    scaleLevel level raw ≤ level ∧ scaleLevel level 65535 = level ∧ scaleLevel level 0 = 0 ∧ scaleLevel 0 raw = 0 ∧
    ∀ lower, lower ≤ level → scaleLevel lower raw ≤ scaleLevel level raw

/-! ## The console pair -/

/-- R82, R83: HANDOVER_ASK from the STANDBY link is answered BUSY with nothing else changed while an ask is pending, and
otherwise makes the ask pending, tells the ACTIVE link, and is answered OK. HANDOVER_DECLINE from the ACTIVE link ends a
pending ask and tells the STANDBY link, or changes nothing where none is pending, and is answered OK. -/
def Obligations.HandoverIsAskedAndDeclined : Prop :=
  ∀ (s : State) (l : Link) (f : Frame),
    (s.InHand l f .handoverAsk → l = s.pair.standbyLink →
      if s.pair.askPending then ∃ t, exec (.handoverAsk l) s = .next t ∧ AnsweredOnly s t l f .busy .none
      else
        ∃ t, exec (.handoverAsk l) s = .next t ∧ Answered s t l f .ok .none ∧ LinksKept s t l ∧
          t = { s with links := t.links, pair := { s.pair with askPending := true } } ∧
          ∀ k, Hears (s.link k) (t.link k) (if k = s.pair.activeLink then [.handoverAsked l] else [])) ∧
    (s.InHand l f .handoverDecline → l = s.pair.activeLink →
      if s.pair.askPending then
        ∃ t, exec (.handoverDecline l) s = .next t ∧ Answered s t l f .ok .none ∧ LinksKept s t l ∧
          t = { s with links := t.links, pair := { s.pair with askPending := false } } ∧
          ∀ k, Hears (s.link k) (t.link k) (if k = s.pair.standbyLink then [.handoverDeclined l] else [])
      else ∃ t, exec (.handoverDecline l) s = .next t ∧ AnsweredOnly s t l f .ok .none)

/-- R70, R72, R77, R84, R85, R86, R117: HANDOVER_GIVE from the ACTIVE link while the STANDBY link is LIVE swaps the roles,
clears override and the ask, and changes the roles of the claims as one with the request's fade. Each link that gained
groups hears one CLAIM_RESTORED of cause PAIR, and both console links then PAIR_CHANGED; the answer is placed after, and is
CLAMPED when the fade was lowered. -/
def Obligations.HandoverGiveSwapsTheRoles : Prop :=
  ∀ (s : State) (l : Link) (f : Frame) (fade : Nat), s.RolesSound → s.InHand l f (.handoverGive fade) →
    l = s.pair.activeLink → (s.link s.pair.standbyLink).state = .live →
    ∃ t, exec (.handoverGive l) s = .next t ∧ Answered s t l f (if 600000 < fade then .clamped else .ok) .none ∧
      LinksKept s t l ∧
      RolesChanged s t
        { s.pair with active := s.pair.active.other, override := false, askPending := false } (min fade 600000) ∧
      (∀ k, Hears (s.link k) (t.link k)
        (restoredNotices .pair (gainedBy s t k) ++ pairNotices t.pair .give (min fade 600000) k)) ∧
      t.pair.activeLink = s.pair.standbyLink ∧
      t = { s with links := t.links, pair := t.pair, slots := t.slots, claims := t.claims }

/-- R70, R72, R77, R79, R80, R85, R86, R117: OVERRIDE from the STANDBY link sets the override flag to its setting and
changes the roles of the STANDBY claims with its fade; each link that gained groups hears one CLAIM_RESTORED of cause PAIR,
and both console links then PAIR_CHANGED. A setting that equals the flag changes nothing but is answered. -/
def Obligations.OverrideChangesTheStandbyClaims : Prop :=
  ∀ (s : State) (l : Link) (f : Frame) (on : Bool) (fade : Nat), s.RolesSound → s.InHand l f (.override on fade) →
    l = s.pair.standbyLink →
    ∃ t, exec (if on then .overrideOn l else .overrideOff l) s = .next t ∧
      (if s.pair.override = on then AnsweredOnly s t l f (if 600000 < fade then .clamped else .ok) .none
      else
        Answered s t l f (if 600000 < fade then .clamped else .ok) .none ∧ LinksKept s t l ∧
          RolesChanged s t { s.pair with override := on } (min fade 600000) ∧
          (∀ k, Hears (s.link k) (t.link k)
            (restoredNotices .pair (gainedBy s t k) ++
              pairNotices t.pair (if on then .overrideOn else .overrideOff) (min fade 600000) k)) ∧
          t = { s with links := t.links, pair := t.pair, slots := t.slots, claims := t.claims })

/-- R14, R15, R72, R77, R81, R85, R86: when the silence timer of the ACTIVE console link runs out while the STANDBY link is
LIVE, the roles swap with the failover fade; while it is not LIVE, the link becomes SILENT and the pair and the claims stay.
When the STANDBY link's runs out, a pending ask and override end, override with a role change over the failover fade. The
other links hear CLAIM_RESTORED of what they gained and the other console PAIR_CHANGED, where the pair record changed, and
the silent link nothing. -/
def Obligations.ConsoleSilenceReachesThePair : Prop :=
  ∀ (s : State) (l : Link), s.inReset = false → s.RolesSound → (l = .cl0 ∨ l = .cl1) → (s.link l).state = .live →
    (s.link l).silenceLimit ≤ elapsed (s.link l).lastGood s.now →
    ∃ t, exec (.silenceTimeout l) s = .next t ∧ Silenced (s.link l) (t.link l) ∧
      (∀ k, k ≠ l →
        t.link k = { s.link k with notices := (t.link k).notices, noticeOverflow := (t.link k).noticeOverflow }) ∧
      t = { s with links := t.links, pair := t.pair, slots := t.slots, claims := t.claims } ∧
      (l = s.pair.activeLink → (s.link s.pair.standbyLink).state = .live →
        RolesChanged s t { s.pair with active := s.pair.active.other, override := false, askPending := false }
          s.pair.failoverFade ∧
        ∀ k, k ≠ l → Hears (s.link k) (t.link k)
          (restoredNotices .pair (gainedBy s t k) ++ pairNotices t.pair .failover s.pair.failoverFade k)) ∧
      (l = s.pair.activeLink → (s.link s.pair.standbyLink).state ≠ .live →
        t.pair = s.pair ∧ t.claims = s.claims ∧ t.slots = s.slots ∧ ∀ k, k ≠ l → t.link k = s.link k) ∧
      (l = s.pair.standbyLink →
        RolesChanged s t { s.pair with override := false, askPending := false } s.pair.failoverFade ∧
        ∀ k, k ≠ l → Hears (s.link k) (t.link k)
          (if s.pair.override then
            restoredNotices .pair (gainedBy s t k) ++ pairNotices t.pair .standbySilent s.pair.failoverFade k
          else if s.pair.askPending then pairNotices t.pair .standbySilent 0 k
          else []))

/-! ## The Safety Layer -/

/-- R26, R153, R154, R155: once SAFE_N has been low for 10 ms while the filtered level was released, the state is
HOLDING and URGENT is set on every bound slot; once it has been high for 10 ms while the filtered level was asserted,
the state is LATCHED; each tells all links. Anything shorter, and a level the filter already holds, changes nothing.
That a command changes nothing where its time or its condition has not come is the model's choice (log entry 4). -/
def Obligations.SafetyInputIsFollowed : Prop :=
  ∀ s : State, s.inReset = false →
    (s.safeNHigh = false → s.safeAsserted = false → 10000 ≤ s.micros - s.safeNChangedAt →
      ∃ t, exec .safetyAssertion s = .next t ∧ t.safeAsserted = true ∧ t.safety = .holding ∧
        HeardBy s t allLinks (.safetyChanged .holding .asserted 0) ∧
        t = { s with safeAsserted := true, safety := .holding, links := t.links, slots := t.slots } ∧
        ∀ n, t.slot n = { s.slot n with flags := { (s.slot n).flags with
          urgent := (s.slot n).flags.urgent || (s.slot n).fixture.isSome } }) ∧
    (s.safeNHigh = true → s.safeAsserted = true → 10000 ≤ s.micros - s.safeNChangedAt →
      ∃ t, exec .safetyRelease s = .next t ∧ HeardBy s t allLinks (.safetyChanged .latched .released 0) ∧
        t = { s with safeAsserted := false, safety := .latched, links := t.links }) ∧
    (s.safeNHigh = true ∨ s.safeAsserted = true ∨ s.micros - s.safeNChangedAt < 10000 →
      exec .safetyAssertion s = .next s) ∧
    (s.safeNHigh = false ∨ s.safeAsserted = false ∨ s.micros - s.safeNChangedAt < 10000 →
      exec .safetyRelease s = .next s)

/-- R117, R156: SAFE_CLEAR from the ACTIVE link is answered SAFETY_HOLD in HOLDING with nothing else changed, and changes
nothing in CLEAR. In LATCHED the state becomes CLEAR, URGENT is set on every bound slot, the LEVEL group of every bound
slot carries a crossfade record from 0 over the fade, all links are told, and the answer no longer carries
SAFETY_ACTIVE. -/
def Obligations.SafeClearBringsTheLightBack : Prop :=
  ∀ (s : State) (l : Link) (f : Frame) (fade : Nat), s.InHand l f (.safeClear fade) → l = s.pair.activeLink →
    (s.safety = .holding → ∃ t, exec (.safeClear l) s = .next t ∧ AnsweredOnly s t l f .safetyHold .none) ∧
    (s.safety = .clear → ∃ t, exec (.safeClear l) s = .next t ∧
      AnsweredOnly s t l f (if 600000 < fade then .clamped else .ok) .none) ∧
    (s.safety = .latched →
      ∃ t, exec (.safeClear l) s = .next t ∧ Answered s t l f (if 600000 < fade then .clamped else .ok) .none ∧
        LinksKept s t l ∧ t = { s with safety := .clear, links := t.links, slots := t.slots } ∧
        (∀ k, Hears (s.link k) (t.link k) [.safetyChanged .clear .cleared (min fade 600000)]) ∧
        ∀ n, t.slot n =
          if (s.slot n).fixture.isSome then
            { s.slot n with
              flags := { (s.slot n).flags with urgent := true }
              fades := { (s.slot n).fades with
                level := some { fromValue := [0], start := { reading := s.now, old := false },
                                duration := min fade 600000 } } }
          else s.slot n)

/-! ## Setup requests -/

/-- What of a slot a disable or a DROP changes (R40, R50, R147): an ONLINE slot of the line is MISSING, with no poll time
and the rest of its fixture as it was; every other slot is as it was. -/
def OnlineGone (s t : State) (ln : LineNo) : Prop :=
  ∀ n, t.slot n =
    match (s.slot n).fixture with
    | none => s.slot n
    | some f =>
      if f.line = ln ∧ f.online = true then
        { s.slot n with fixture := some { f with online := false, pollTime := none } }
      else s.slot n

/-- R39, R50, R136, R142, R147, R148: SET_LINE from the ACTIVE link stores its settings, the times in their ranges, and is
answered CLAMPED when a time was out of range. Enabled on begins a FULL enrolment on an OFF line and cancels a pending
disable. Enabled off takes effect at once on an IDLE line and on an ENROLLING line with no exchange in flight, whose
operation is abandoned: the line is OFF, its ONLINE slots are MISSING, and the links hear ENROL_DONE and a FIXTURE_GONE for
each slot; with an exchange in flight it is pending. No other line changes. -/
def Obligations.SetLineSetsUpItsLine : Prop :=
  ∀ (s : State) (l : Link) (f : Frame) (x : LineSettings), s.LinesSound → s.InHand l f (.setLine x) →
    l = s.pair.activeLink →
    ∃ t, exec (.setLine l) s = .next t ∧
      Answered s t l f
        (if x.replyWindow < 100 ∨ 2000 < x.replyWindow ∨ x.refreshPeriod < 100 ∨ 5000 < x.refreshPeriod ∨
          x.joinPeriod < 250 ∨ 10000 < x.joinPeriod then .clamped else .ok) .none ∧
      LinksKept s t l ∧ t = { s with links := t.links, slots := t.slots, lines := t.lines } ∧
      (∀ k, k ≠ x.line → t.line k = s.line k) ∧
      (t.line x.line).enabled = x.enabled ∧ (t.line x.line).requested = x.rate ∧
      (t.line x.line).replyWindow = max 100 (min 2000 x.replyWindow) ∧
      (t.line x.line).refreshPeriod = max 100 (min 5000 x.refreshPeriod) ∧
      (t.line x.line).joinPeriod = max 250 (min 10000 x.joinPeriod) ∧
      (t.line x.line).effective = t.slowest x.line ∧ (t.line x.line).exchange = (s.line x.line).exchange ∧
      (t.line x.line).lastCall = (s.line x.line).lastCall ∧
      (t.line x.line).joinSuspended = (s.line x.line).joinSuspended ∧
      (t.line x.line).conditions = (s.line x.line).conditions ∧
      (if x.enabled then
        t.slots = s.slots ∧ (t.line x.line).disablePending = false ∧ Quiet s t ∧
          (if (s.line x.line).seq = .off then
            (t.line x.line).seq = .enrolling ∧ (t.line x.line).enrol = EnrolRecord.start .full .dropping
          else (t.line x.line).seq = (s.line x.line).seq ∧ (t.line x.line).enrol = (s.line x.line).enrol)
      else if (s.line x.line).seq = .idle ∨ ((s.line x.line).seq = .enrolling ∧ (s.line x.line).exchange = none) then
        (t.line x.line).seq = .off ∧ (t.line x.line).disablePending = false ∧
          (t.line x.line).enrol.operation = .none ∧ OnlineGone s t x.line ∧
          ∀ k, Hears (s.link k) (t.link k) (abandonedNotices s x.line ++ allGone s x.line .lineOff)
      else
        t.slots = s.slots ∧ (t.line x.line).seq = (s.line x.line).seq ∧
          (t.line x.line).enrol = (s.line x.line).enrol ∧ Quiet s t ∧
          ((s.line x.line).seq ≠ .off → (t.line x.line).disablePending = true))

/-- R38, R152: ENROL_LINE, of either form, from the ACTIVE link is answered LINE_OFF on a line that is OFF or has a disable
pending, and BUSY on a line with an operation, with nothing else changed. Otherwise the operation begins, FULL in
DROPPING or JOIN in CALLING, with bound count 0; join-suspended is clear, the three enrolment conditions are gone, each
that was present with its LINE_CONDITION to all links, and WRONG_ADDRESS is as it was; an IDLE line is ENROLLING at once,
any other stays as it is until its exchange ends. -/
def Obligations.EnrolLineBeginsAnOperation : Prop :=
  ∀ (s : State) (l : Link) (f : Frame) (ln : LineNo) (full : Bool), s.InHand l f (.enrolLine ln full) →
    l = s.pair.activeLink →
    ∃ t, exec (if full then .enrolLineFull l else .enrolLineJoin l) s = .next t ∧
      (if (s.line ln).seq = .off ∨ (s.line ln).disablePending = true then AnsweredOnly s t l f .lineOff .none
      else if (s.line ln).enrol.operation ≠ .none then AnsweredOnly s t l f .busy .none
      else
        Answered s t l f .ok .none ∧ LinksKept s t l ∧ t = { s with links := t.links, lines := t.lines } ∧
          (∀ k, Hears (s.link k) (t.link k)
            (([LineCondition.enrolFailed, .tableFull, .duplicateId].filter (s.line ln).conditions.has).map
              (fun c => .lineCondition ln c false))) ∧
          (∀ k, k ≠ ln → t.line k = s.line k) ∧
          t.line ln =
            { s.line ln with
              joinSuspended := false
              conditions := { enrolFailed := false, tableFull := false, duplicateId := false,
                              wrongAddress := (s.line ln).conditions.wrongAddress }
              seq := if (s.line ln).seq = .idle then .enrolling else (s.line ln).seq
              enrol := if full then EnrolRecord.start .full .dropping else EnrolRecord.start .join .calling })

/-- R29, R30: SET_TYPE from the ACTIVE link writes the in-use entry that holds its code, or else the lowest unused entry,
and is answered OK with the entry's number; with the code held by none and no entry unused it is answered TABLE_FULL
with nothing else changed. A bound slot of the code with no type index takes the entry's number, every bound slot whose
index is then the entry has CHANGED set, and nothing else of any slot or entry changes. -/
def Obligations.SetTypeWritesAnEntry : Prop :=
  ∀ (s : State) (l : Link) (f : Frame) (code : BitVec 16) (m : Matrix), s.InHand l f (.setType code m) →
    l = s.pair.activeLink →
    ((∀ k e, s.typeEntry k = some e → e.code ≠ code) → (∀ k, (s.typeEntry k).isSome = true) →
      ∃ t, exec (.setType l) s = .next t ∧ AnsweredOnly s t l f .tableFull .none) ∧
    ∀ k : Fin 16,
      ((∃ e, s.typeEntry k = some e ∧ e.code = code ∧ ∀ j d, j < k → s.typeEntry j = some d → d.code ≠ code) ∨
        ((∀ j d, s.typeEntry j = some d → d.code ≠ code) ∧ s.typeEntry k = none ∧
          ∀ j, j < k → (s.typeEntry j).isSome = true)) →
      ∃ t, exec (.setType l) s = .next t ∧ Answered s t l f .ok (.entry k.val) ∧ LinksKept s t l ∧ Quiet s t ∧
        t = { s with links := t.links, slots := t.slots, types := t.types } ∧
        t.typeEntry k = some { code := code, matrix := m } ∧ (∀ j, j ≠ k → t.typeEntry j = s.typeEntry j) ∧
        ∀ n, t.slot n =
          match (s.slot n).fixture with
          | none => s.slot n
          | some x =>
            if x.typeIndex = some k ∨ (x.typeCode = code ∧ x.typeIndex = none) then
              { s.slot n with
                fixture := some { x with typeIndex := some k }
                flags := { (s.slot n).flags with changed := true } }
            else s.slot n

/-- R32: a FORGET from the ACTIVE link of a set with an ONLINE slot is answered BUSY with nothing else changed. Any other
is answered OK and frees every MISSING slot of the set, which loses its fixture and all four flags and keeps its parked
values and crossfade records; every other slot, every claim and every line is as it was. -/
def Obligations.ForgetFreesMissingSlots : Prop :=
  ∀ (s : State) (l : Link) (f : Frame) (set : SlotSet) (slots : List SlotNo), s.InHand l f (.forget set) →
    set.slots = some slots → l = s.pair.activeLink →
    ∃ t, exec (.forget l) s = .next t ∧
      (if slots.any (fun n => decide ((s.slot n).state = .online)) then AnsweredOnly s t l f .busy .none
      else
        Answered s t l f .ok .none ∧ t = { s with links := t.links, slots := t.slots } ∧ LinksKept s t l ∧ Quiet s t ∧
          ∀ n, t.slot n =
            if n ∈ slots ∧ (s.slot n).state = .missing then
              { s.slot n with
                fixture := none
                flags := { changed := false, urgent := false, lagging := false, gamut := false } }
            else s.slot n)

/-! ## Queries -/

/-- R57: a claim of a stack may stand before another: its tier comes first, or the tiers are one and a LIVE claim behind it
is behind a LIVE claim whose taken stamp was not set earlier. -/
def MayPrecede (a b : Claim) : Prop :=
  a.link.tier < b.link.tier ∨
    (a.link.tier = b.link.tier ∧ (b.role = .live → a.role = .live ∧ b.takenOrder ≤ a.takenOrder))

/-- R34, R57, R69, R74, R108, R109, R113, R114, R115: READ_SLOT is answered OK with the slot's record and, for each group,
the owner's link, the present value and whether a crossfade record runs; READ_CLAIMS with the claims of the group, the owner
first when there is one and the others in R57's order (log entry 20: where the two part, R74's owner first is followed),
each claim with its standing and its running step's phase, and the record that runs. Neither changes anything but to remove
a crossfade record whose duration has passed from the groups it reads, and no notice comes or goes. The present value is
the record's value toward what is beneath it while a record runs, and otherwise the owner's own value or the parked value;
a claim's own value is its rest value or its running step's value; and while every value held is in range, so is every
present value. -/
def Obligations.SlotAndClaimsAreReported : Prop :=
  (∀ (s : State) (l : Link) (f : Frame) (n : SlotNo),
    (s.InHand l f (.readSlot n.val) →
      ∃ t, exec (.readSlot l) s = .next t ∧ LinksKept s t l ∧ Quiet s t ∧
        t = { s with links := t.links, slots := t.slots } ∧ (∀ m, m ≠ n → t.slot m = s.slot m) ∧
        t.slot n = { s.slot n with fades := { aim := s.runningFade n .aim, colour := s.runningFade n .colour,
                                              level := s.runningFade n .level } } ∧
        Answered s t l f .ok (.slot n (t.slot n)
          (PerGroup.make fun g => { ownerLink := (s.owner n g).map (·.link), present := s.present n g,
                                    fading := (s.runningFade n g).isSome }))) ∧
    ∀ g, s.InHand l f (.readClaims n.val g) →
      ∃ (t : State) (stack : List Claim), exec (.readClaims l) s = .next t ∧ LinksKept s t l ∧ Quiet s t ∧
        t = { s with links := t.links, slots := t.slots } ∧ (∀ m, m ≠ n → t.slot m = s.slot m) ∧
        t.slot n = { s.slot n with fades := (s.slot n).fades.set g (s.runningFade n g) } ∧
        stack.Perm (s.claims.filter (fun c => decide (c.slot = n) && decide (c.group = g))) ∧
        ((s.owner n g).isSome = true → stack.head? = s.owner n g) ∧
        stack.Pairwise (fun a b => s.owner n g = some a ∨ MayPrecede a b) ∧
        Answered s t l f .ok (.claims g
          (stack.map fun c =>
            { claim := c
              standing := if c.role = .shadow then .shadow
                else if s.ownerNumber n g = some c.number then .owner else .held
              phase := c.running.map fun r =>
                if elapsed r.startTime s.now < r.step.duration then .moving else .dwelling })
          (s.runningFade n g))) ∧
  (∀ (s : State) (n : SlotNo) (g : Group),
    (s.runningFade n g = (s.slot n).fades.get g ∨ s.runningFade n g = none) ∧
    (∀ x, (s.slot n).fades.get g = some x → (s.runningFade n g = none ↔ x.duration ≤ x.start.age s.now)) ∧
    s.present n g =
      (let beneath := match s.owner n g with
        | none => (s.slot n).parked.get g
        | some c => c.ownValue s.now
       match s.runningFade n g with
        | none => beneath
        | some x =>
          List.zipWith (fun v p => interpolate v p (x.start.age s.now * 65536 / x.duration)) x.fromValue beneath) ∧
    (s.ValuesSound → Value.Fits g (s.present n g))) ∧
  ∀ (c : Claim) (t : Reading),
    (c.running = none → c.ownValue t = c.rest) ∧
    ∀ r, c.running = some r → c.ownValue t =
      (if r.step.duration = 0 ∨ r.step.duration ≤ elapsed r.startTime t then r.step.target
      else if r.adjusted = .snap then r.step.target
      else if r.adjusted = .snapEnd then r.startValue
      else
        List.zipWith
          (fun v p => interpolate v p (shape r.adjusted (elapsed r.startTime t * 65536 / r.step.duration)))
          r.startValue r.step.target)

/-- R18, R31, R149, R152: READ_LINE is answered OK with the line record as it stands and the numbers of its ONLINE and
MISSING slots, after which WRONG_ADDRESS is gone and its going is told to all links where it was present; READ_TYPE with
an entry, an unused one as code 0 and the default matrix, and the number of bound slots that use it; READ_PART with the
clock, the safety state, the pair record and the free counts. None changes anything else. -/
def Obligations.LineTypeAndPartAreReported : Prop :=
  ∀ (s : State) (l : Link) (f : Frame),
    (∀ ln, s.InHand l f (.readLine ln) →
      ∃ t, exec (.readLine l) s = .next t ∧ LinksKept s t l ∧ t = { s with links := t.links, lines := t.lines } ∧
        (∀ k, k ≠ ln → t.line k = s.line k) ∧
        t.line ln = { s.line ln with conditions := { (s.line ln).conditions with wrongAddress := false } } ∧
        (∀ k, Hears (s.link k) (t.link k)
          (if (s.line ln).conditions.wrongAddress then [.lineCondition ln .wrongAddress false] else [])) ∧
        Answered s t l f .ok (.line (s.line ln) (s.onlineOf ln).length (s.missingOf ln).length)) ∧
    (∀ k, s.InHand l f (.readType k) →
      ∃ t, exec (.readType l) s = .next t ∧
        AnsweredOnly s t l f .ok (.type (s.typeEntry k).isSome (((s.typeEntry k).map (·.code)).getD 0)
          (((s.typeEntry k).map (·.matrix)).getD defaultMatrix)
          (allSlots.filter (fun n => decide ((s.slot n).fixture.bind (·.typeIndex) = some k))).length)) ∧
    (s.InHand l f .readPart →
      ∃ t, exec (.readPart l) s = .next t ∧
        AnsweredOnly s t l f .ok (.part s.now s.safety s.pair (1024 - s.claims.length) (4096 - s.stepRecords.length)))

/-! ## The Line Sequencers -/

/-- R25, R47, R51, R106: a stamp is absent, or old, or was set at least a period before a reading. -/
def AtLeastAgo (a : Option Stamp) (period : Nat) (now : Reading) : Prop :=
  ∀ x, a = some x → x.old = true ∨ period ≤ elapsed x.reading now

/-- R106, R144: one stamp lies longer ago than another: an absent one than any that is set, an old one than any that is
not, and otherwise the one with the longer elapsed time. -/
def LongerAgo (a b : Option Stamp) (now : Reading) : Prop :=
  match a, b with
  | _, none => False
  | none, some _ => True
  | some x, some y => y.old = false ∧ (x.old = true ∨ elapsed y.reading now < elapsed x.reading now)

/-- R51, R143: whether slot `n`, bound with the fixture `f`, is a member of a class of its line. -/
def InClass (s : State) (n : SlotNo) (f : Fixture) : SlotClass → Prop
  | .urgent => f.online = true ∧ (s.slot n).flags.urgent = true
  | .changed => f.online = true ∧ (s.slot n).flags.changed = true
  | .overdue =>
    f.online = true ∧ AtLeastAgo (f.lastSent.map (·.time)) (3 * (s.line f.line).refreshPeriod + 1) s.now
  | .moving =>
    f.online = true ∧ ((s.slot n).flags.lagging = true ∨ ∃ g,
      (∃ c r, s.owner n g = some c ∧ c.running = some r ∧ elapsed r.startTime s.now < r.step.duration) ∨
        ∃ x, (s.slot n).fades.get g = some x ∧ x.start.old = false ∧ elapsed x.start.reading s.now < x.duration)
  | .refresh => f.online = true ∧ AtLeastAgo (f.lastSent.map (·.time)) (s.line f.line).refreshPeriod s.now
  | .recover => f.online = false ∧ AtLeastAgo f.pollTime (s.line f.line).joinPeriod s.now

/-- R143: the classes that come before a class. -/
def classesBefore : SlotClass → List SlotClass
  | .urgent => []
  | .changed => [.urgent]
  | .overdue => [.urgent, .changed]
  | .moving => [.urgent, .changed, .overdue]
  | .refresh => [.urgent, .changed, .overdue, .moving]
  | .recover => [.urgent, .changed, .overdue, .moving, .refresh]

/-- R144: the stamp by which the members of a class are served: the poll time in RECOVER, the last-sent time before. -/
def servedAt (k : SlotClass) (f : Fixture) : Option Stamp :=
  if k = .recover then f.pollTime else f.lastSent.map (·.time)

/-- R143, R144: slot `n`, bound to the line with the fixture `f`, is the member of class `k` that a pick takes: no slot of
the line is a member of a class before `k`, and of the members of `k` none was served longer ago, and none as long ago has a
lower number. -/
def IsServed (s : State) (ln : LineNo) (k : SlotClass) (n : SlotNo) (f : Fixture) : Prop :=
  (s.slot n).fixture = some f ∧ f.line = ln ∧ InClass s n f k ∧
    (∀ j ∈ classesBefore k, ∀ m h, (s.slot m).fixture = some h → h.line = ln → ¬InClass s m h j) ∧
    ∀ m h, (s.slot m).fixture = some h → h.line = ln → InClass s m h k →
      ¬LongerAgo (servedAt k h) (servedAt k f) s.now ∧ (m < n → LongerAgo (servedAt k f) (servedAt k h) s.now)

/-- R145: whether the line can make a pick. -/
def CanPick (s : State) (ln : LineNo) : Prop :=
  s.inReset = false ∧ (s.line ln).seq = .idle ∧ (s.line ln).restedAt ≤ s.micros ∧ (s.line ln).disablePending = false

/-- R41, R47, R51, R138, R143, R144, R145: a line that can pick begins, at its effective rate, a SET exchange with the slot
R144 takes from the first five classes, or a POLL exchange with the one it takes from RECOVER, setting its poll time; or,
where no slot is a member of any class and the line is a member of JOIN, a joining operation in CALLING with its first CALL,
at 250 kbit/s, which sets the last-call time. With no member of any class, and while the line cannot pick, nothing changes.
That a command changes nothing where its time or its condition has not come is the model's choice (log entry 4). -/
def Obligations.SchedulerServesTheMostPressing : Prop :=
  ∀ (s : State) (ln : LineNo), s.LinesSound → s.ValuesSound →
    (∀ k n f, CanPick s ln → k ≠ .recover → IsServed s ln k n f →
      ∃ t pan tilt levels, exec (.schedulerPick ln) s = .next t ∧
        t = { s with slots := t.slots, lines := t.lines } ∧ (∀ m, m ≠ n → t.slot m = s.slot m) ∧
        (∀ j, j ≠ ln → t.line j = s.line j) ∧
        t.line ln =
          { s.line ln with
            seq := .sending
            exchange := some { frame := .set n f.address pan tilt levels, rate := (s.line ln).effective, phase := .frame,
                               ends := s.micros + (s.line ln).effective.charMicros * (7 + 2 * levels.length) } }) ∧
    (∀ n f, CanPick s ln → IsServed s ln .recover n f →
      ∃ t, exec (.schedulerPick ln) s = .next t ∧ t = { s with slots := t.slots, lines := t.lines } ∧
        (∀ m, m ≠ n → t.slot m = s.slot m) ∧ (∀ j, j ≠ ln → t.line j = s.line j) ∧
        t.slot n = { s.slot n with fixture := some { f with pollTime := some { reading := s.now, old := false } } } ∧
        t.line ln =
          { s.line ln with
            seq := .sending
            exchange := some { frame := .poll n f.address, rate := (s.line ln).effective, phase := .frame,
                               ends := s.micros + (s.line ln).effective.charMicros * 3 } }) ∧
    (CanPick s ln → (∀ k m h, (s.slot m).fixture = some h → h.line = ln → ¬InClass s m h k) →
      ((s.line ln).joinSuspended = false ∧ AtLeastAgo (s.line ln).lastCall (s.line ln).joinPeriod s.now →
        exec (.schedulerPick ln) s = .next (s.setLine ln
          { s.line ln with
            seq := .enrolling
            enrol := EnrolRecord.start .joining .calling
            lastCall := some { reading := s.now, old := false }
            exchange := some { frame := .call, rate := .r250, phase := .frame, ends := s.micros + 120 } })) ∧
      (¬((s.line ln).joinSuspended = false ∧ AtLeastAgo (s.line ln).lastCall (s.line ln).joinPeriod s.now) →
        exec (.schedulerPick ln) s = .next s)) ∧
    (s.inReset = false → ¬CanPick s ln → exec (.schedulerPick ln) s = .next s)

/-- R25, R119 to R123, R127, R131 to R134, R146: the SET frame built for the slot a pick takes. In CLEAR it carries the
present aim as far as the declared speeds allow since the reference time, which then moves to what was sent, and the
emitter levels of the present intent and level; in a hold it carries the reference, which stays, and darkness. LAGGING
says whether aim was limited, GAMUT whether the levels were brought into gamut; CHANGED and URGENT clear; the last-sent
record holds what was sent and when; and spent crossfade records of the slot are removed. -/
def Obligations.SetFrameCarriesTheInstant : Prop :=
  ∀ (s : State) (ln : LineNo) (k : SlotClass) (n : SlotNo) (f : Fixture), s.LinesSound → s.ValuesSound →
    CanPick s ln → k ≠ .recover → IsServed s ln k n f →
    ∃ t pan tilt levels rate ends, exec (.schedulerPick ln) s = .next t ∧
      (t.line ln).exchange = some { frame := .set n f.address pan tilt levels, rate := rate, phase := .frame, ends := ends } ∧
      (let present := s.present n .aim
       let allowed := min (f.refTime.age s.now) 1000
       let raws := rawLevels (s.matrixFor f.typeIndex) f.emitters ((s.present n .colour).getD 0 0)
         ((s.present n .colour).getD 1 0) ((s.present n .colour).getD 2 0)
       let now : Stamp := { reading := s.now, old := false }
       levels.length = min f.emitters 5 ∧
       (if s.safety = .clear then
         pan = limitMove (present.getD 0 0) f.refPan (f.panSpeed * allowed) ∧
           tilt = limitMove (present.getD 1 0) f.refTilt (f.tiltSpeed * allowed) ∧
           levels = (gamutScale raws).map (scaleLevel ((s.present n .level).getD 0 0)) ∧
           ((s.present n .level).getD 0 0 ≤ 65535 → ∀ x ∈ levels, x ≤ (s.present n .level).getD 0 0)
       else pan = f.refPan ∧ tilt = f.refTilt ∧ ∀ x ∈ levels, x = 0) ∧
       t.slot n =
         { fixture := some
             { f with
               refPan := pan, refTilt := tilt, refTime := if s.safety = .clear then now else f.refTime
               lastSent := some { pan := pan, tilt := tilt, levels := levels, time := now } }
           parked := (s.slot n).parked
           fades := { aim := s.runningFade n .aim, colour := s.runningFade n .colour, level := s.runningFade n .level }
           flags :=
             { changed := false, urgent := false
               lagging := decide (pan ≠ present.getD 0 0 ∨ tilt ≠ present.getD 1 0)
               gamut := decide (∃ raw ∈ raws, 65535 < raw) } })

/-- R39, R41, R43, R138, R139, R141, R160: a rested ENROLLING line begins the frame its record calls for, at 250
kbit/s, and a CALL sets the last-call time; the last character of a SET or POLL frame, and of an ASSIGN, opens the
reply window of the setting as it then stands (R139) and the expected reply; that of a CALL opens an arbitration window of
160 µs; and characters after an exchange restart the line's rest. Nothing else changes, and what is not due changes nothing.
The part drives a line while a frame goes out and in the rest after an exchange, and at no other time out of reset. The
bytes of a frame are its address, its kind, its payload as section 12.2 gives it, and its CRC-8. The model's choices: a
command changes nothing where its time or its condition has not come (log entry 4); characters that come before the first
exchange after reset begin a rest as well, driven as any rest is, and characters do nothing while an exchange is in flight
(log entry 28); and an enable's DROP waits for the rest (log entry 38). -/
def Obligations.LineFramesGoOut : Prop :=
  (∀ frame : LineFrame, frame.bytes =
    match frame with
    | .set _ a pan tilt levels =>
      lineBytes a 1#8 (fieldBytes ((2, pan) :: (2, tilt) :: levels.map fun x => (2, x)))
    | .poll _ a => lineBytes a 2#8 []
    | .call => lineBytes 63 4#8 []
    | .assign u a => lineBytes 63 5#8 (fieldBytes [(5, u.toNat), (1, a)])
    | .drop a => lineBytes a 7#8 []) ∧
  ∀ (s : State) (ln : LineNo), s.inReset = false →
    (s.drives ln = true ↔
      ((∃ x, (s.line ln).exchange = some x ∧ x.phase = .frame) ∨
        ((s.line ln).exchange = none ∧ s.micros < (s.line ln).restedAt))) ∧
    (∀ frame, (s.line ln).seq = .enrolling → (s.line ln).exchange = none → (s.line ln).restedAt ≤ s.micros →
      ((∃ g, (s.line ln).enrol.giveUp = some g ∧ frame = .drop g.address) ∨
        ((s.line ln).enrol.giveUp = none ∧
          (((s.line ln).enrol.subState = some .dropping ∧ frame = .drop 0) ∨
            ((s.line ln).enrol.subState = some .calling ∧ frame = .call) ∨
            ((s.line ln).enrol.subState = some .assigning ∧ ∃ u a, (s.line ln).enrol.captured = some u ∧
              (s.line ln).enrol.offered = some a ∧ frame = .assign u a)))) →
      exec (.enrolFrameStart ln) s = .next (s.setLine ln
        { s.line ln with
          lastCall := if frame = .call then some { reading := s.now, old := false } else (s.line ln).lastCall
          exchange := some { frame := frame, rate := .r250, phase := .frame,
                             ends := s.micros + 40 * (if frame.replyLength = 16 then 9 else 3) } })) ∧
    ((s.line ln).seq ≠ .enrolling ∨ (s.line ln).exchange ≠ none ∨ s.micros < (s.line ln).restedAt →
      exec (.enrolFrameStart ln) s = .next s) ∧
    (∀ x a, (s.line ln).exchange = some x → x.frame.slotAddress = some a → x.phase = .frame → x.ends ≤ s.micros →
      exec (.lineFrameEnd ln) s = .next (s.setLine ln
        { s.line ln with
          seq := .awaiting
          exchange := some { x with phase := .window,
                                    ends := s.micros + (s.line ln).replyWindow + x.rate.charMicros * 8 } })) ∧
    (∀ x, (s.line ln).exchange = some x → x.frame = .call → x.phase = .frame → x.ends ≤ s.micros →
      exec (.callDone ln) s = .next (s.setLine ln
        { s.line ln with
          enrol := { (s.line ln).enrol with subState := some .arbitrating }
          exchange := some { frame := .call, rate := .r250, phase := .arbitration, ends := s.micros + 160 } })) ∧
    (∀ x u a, (s.line ln).exchange = some x → x.frame = .assign u a → x.phase = .frame → x.ends ≤ s.micros →
      exec (.assignDone ln) s = .next (s.setLine ln
        { s.line ln with
          exchange := some { x with phase := .window,
                                    ends := s.micros + (s.line ln).replyWindow + x.rate.charMicros * 16 } })) ∧
    ((s.line ln).exchange = none →
      exec (.lateCharacters ln) s = .next (s.setLine ln
        { s.line ln with restedAt := s.micros + 2 * (s.line ln).restRate.charMicros })) ∧
    ((s.line ln).exchange.isSome = true → exec (.lateCharacters ln) s = .next s) ∧
    (∀ x, (s.line ln).exchange = some x → s.micros < x.ends →
      exec (.lineFrameEnd ln) s = .next s ∧ exec (.callDone ln) s = .next s ∧ exec (.assignDone ln) s = .next s)

/-- R137, R141: an exchange `x` of a line has ended with no disable pending: the line begins its rest, and is ENROLLING
while an operation runs and IDLE otherwise; its effective rate, conditions, enrolment record and join-suspended flag are
what `t` holds, and the rest of its record, and every other line, is as it was. -/
def ExchangeOver (s t : State) (ln : LineNo) (x : Exchange) : Prop :=
  (∀ k, k ≠ ln → t.line k = s.line k) ∧
    t.line ln =
      { s.line ln with
        exchange := none
        restRate := x.rate
        restedAt := s.micros + 2 * x.rate.charMicros
        seq := if (t.line ln).enrol.operation = .none then .idle else .enrolling
        effective := (t.line ln).effective
        conditions := (t.line ln).conditions
        enrol := (t.line ln).enrol
        joinSuspended := (t.line ln).joinSuspended }

/-- The ACK of R160: a run of eight good characters, from an address, with a condition set byte and a position. -/
def ackOf (address : Nat) (conditions : Byte) (pan tilt : Nat) : List RxChar :=
  asCharacters (lineBytes address 3#8 (conditions :: (bytes16 pan ++ bytes16 tilt)))

/-- R151: the FIXTURE_CONDITION notices of a slot whose stored condition set is replaced by the reported one: one for each flag
in one set and not in the other, in the order of R151, with entered where the reported set holds the flag. -/
def conditionChanges (n : SlotNo) (stored reported : ConditionSet) : List Notice :=
  (if stored.motorStall = reported.motorStall then [] else [.fixtureCondition n .motorStall reported.motorStall]) ++
  (if stored.overTemperature = reported.overTemperature then []
    else [.fixtureCondition n .overTemperature reported.overTemperature]) ++
  (if stored.emitterFault = reported.emitterFault then []
    else [.fixtureCondition n .emitterFault reported.emitterFault]) ++
  (if stored.positionLost = reported.positionLost then []
    else [.fixtureCondition n .positionLost reported.positionLost]) ++
  (if stored.fanFault = reported.fanFault then [] else [.fixtureCondition n .fanFault reported.fanFault])

/-- R140, R152, R160: a reply is a checked ACK from an address other than `a`: the bytes of its first eight characters are
those of the ACK of some other address, whatever their stop bits. -/
def WrongAck (a : Nat) (reply : List RxChar) : Prop :=
  ∃ b c p q, b < 256 ∧ b ≠ a ∧ (reply.take 8).map (·.byte) = lineBytes b 3#8 (c :: (bytes16 p ++ bytes16 q))

/-- R49, R50: a miss on slot `n`: one more miss, and MISSING, with its poll time gone and the rate recomputed, at the third.
Nothing else of the state, but for the line's conditions and the notices, has changed. -/
def Missed (s t : State) (ln : LineNo) (n : SlotNo) (f : Fixture) : Prop :=
  t = { s with links := t.links, slots := t.slots, lines := t.lines } ∧ LinksHear s t ∧
    (∀ m, m ≠ n → t.slot m = s.slot m) ∧ (t.line ln).enrol = (s.line ln).enrol ∧
    (t.line ln).joinSuspended = (s.line ln).joinSuspended ∧
    (if f.misses + 1 < 3 then
      t.slot n = { s.slot n with fixture := some { f with misses := f.misses + 1 } } ∧
        (t.line ln).effective = (s.line ln).effective
    else
      t.slot n =
          { s.slot n with fixture := some { f with misses := f.misses + 1, online := false, pollTime := none } } ∧
        (t.line ln).effective = t.slowest ln)

/-- R50: FIXTURE_GONE of a miss, at the third. -/
def missNotices (ln : LineNo) (n : SlotNo) (f : Fixture) : List Notice :=
  if f.misses + 1 < 3 then [] else [.fixtureGone n ln f.address .misses]

/-- R49, R50, R126, R139, R140, R151, R152, R160: how a SET exchange ends while no disable is pending, its reply judged by the
first eight characters. A good ACK, from the slot's address with no broken character, clears the slot's misses, replaces its
condition set with the notices of the change, and moves its reference only when POSITION_LOST enters. A checked ACK from
another address, broken characters or not, enters WRONG_ADDRESS, with its LINE_CONDITION where it was absent, and is a miss;
any other reply, and the window's expiry, is a miss; a third miss tells all links FIXTURE_GONE, before any LINE_CONDITION
(log entry 17). A reply after the expiry and an expiry before its time change nothing. That a command changes nothing where
its time or its condition has not come is the model's choice (log entry 4), and so is that a reply and the expiry are both
in time at the very microsecond of the end (log entry 11). -/
def Obligations.SetRepliesAreCounted : Prop :=
  ∀ (s : State) (ln : LineNo) (x : Exchange) (n : SlotNo) (f : Fixture) (a pan tilt : Nat) (levels : List Nat),
    s.inReset = false → (s.line ln).disablePending = false → (s.line ln).exchange = some x → x.phase = .window →
    x.frame = .set n a pan tilt levels → (s.slot n).fixture = some f → f.line = ln → f.online = true → a < 64 →
    (∀ reply c p q, s.micros ≤ x.ends → p ≤ 65535 → q ≤ 65535 → reply.take 8 = ackOf a c p q →
      ∃ t, exec (.replyEnd ln reply) s = .next t ∧ ExchangeOver s t ln x ∧
        t = { s with links := t.links, slots := t.slots, lines := t.lines } ∧
        (∀ m, m ≠ n → t.slot m = s.slot m) ∧
        (let lost := (ConditionSet.ofByte c).positionLost && !f.conditions.positionLost
         t.slot n =
          { s.slot n with
            fixture := some
              { f with
                misses := 0
                conditions := ConditionSet.ofByte c
                refPan := if lost then p else f.refPan
                refTilt := if lost then q else f.refTilt
                refTime := if lost then { reading := s.now, old := false } else f.refTime } }) ∧
        (t.line ln).effective = (s.line ln).effective ∧ (t.line ln).conditions = (s.line ln).conditions ∧
        (t.line ln).enrol = (s.line ln).enrol ∧ (t.line ln).joinSuspended = (s.line ln).joinSuspended ∧
        ∀ k, t.link k = (conditionChanges n f.conditions (ConditionSet.ofByte c)).foldl LinkRec.receive (s.link k)) ∧
    (∀ reply, s.micros ≤ x.ends → WrongAck a reply →
      ∃ t, exec (.replyEnd ln reply) s = .next t ∧ ExchangeOver s t ln x ∧ Missed s t ln n f ∧
        (t.line ln).conditions = { (s.line ln).conditions with wrongAddress := true } ∧
        ∀ k, Hears (s.link k) (t.link k) (missNotices ln n f ++ enteredNotices s ln .wrongAddress)) ∧
    (∀ reply, s.micros ≤ x.ends → ¬WrongAck a reply → (∀ c p q, reply.take 8 ≠ ackOf a c p q) →
      ∃ t, exec (.replyEnd ln reply) s = .next t ∧ ExchangeOver s t ln x ∧ Missed s t ln n f ∧
        (t.line ln).conditions = (s.line ln).conditions ∧
        ∀ k, Hears (s.link k) (t.link k) (missNotices ln n f)) ∧
    (x.ends ≤ s.micros →
      ∃ t, exec (.replyWindowExpiry ln) s = .next t ∧ ExchangeOver s t ln x ∧ Missed s t ln n f ∧
        (t.line ln).conditions = (s.line ln).conditions ∧
        ∀ k, Hears (s.link k) (t.link k) (missNotices ln n f)) ∧
    (x.ends < s.micros → ∀ reply, exec (.replyEnd ln reply) s = .next s) ∧
    (s.micros < x.ends → exec (.replyWindowExpiry ln) s = .next s)

/-- R33, R51, R52, R53, R125, R139, R140, R151, R152: how a POLL exchange ends while no disable is pending, its reply judged by
the first eight characters. A good ACK to it, its slot still MISSING on the line, makes the slot ONLINE with no miss and no
poll time, its reference at the position reported and CHANGED set, and raises FIXTURE_JOINED with returned set and then the
notices of the change of its condition set; every other end of it, and a good ACK that finds its slot no longer MISSING on
the line, changes no slot and raises no notice, but that a checked ACK from another address, broken characters or not,
enters WRONG_ADDRESS, with its LINE_CONDITION where it was absent. A reply after the window's end and an expiry before it
change nothing (log entry 4: the model's choice). That a reply and the expiry are both in time at the very microsecond of the
end is the model's choice (log entry 11). -/
def Obligations.PollRepliesReturnFixtures : Prop :=
  ∀ (s : State) (ln : LineNo) (x : Exchange) (n : SlotNo) (a : Nat), s.inReset = false →
    (s.line ln).disablePending = false → (s.line ln).exchange = some x → x.phase = .window → x.frame = .poll n a →
    a < 64 →
    (∀ f reply c p q, s.micros ≤ x.ends → p ≤ 65535 → q ≤ 65535 → reply.take 8 = ackOf a c p q →
      (s.slot n).fixture = some f → f.line = ln → f.online = false →
      ∃ t, exec (.replyEnd ln reply) s = .next t ∧ ExchangeOver s t ln x ∧
        t = { s with links := t.links, slots := t.slots, lines := t.lines } ∧
        (∀ m, m ≠ n → t.slot m = s.slot m) ∧
        t.slot n =
          { s.slot n with
            flags := { (s.slot n).flags with changed := true }
            fixture := some
              { f with
                online := true, misses := 0, pollTime := none, conditions := ConditionSet.ofByte c
                refPan := p, refTilt := q, refTime := { reading := s.now, old := false } } } ∧
        (t.line ln).effective = t.slowest ln ∧ (t.line ln).enrol = (s.line ln).enrol ∧
        (t.line ln).conditions = (s.line ln).conditions ∧ (t.line ln).joinSuspended = (s.line ln).joinSuspended ∧
        ∀ k, t.link k = (conditionChanges n f.conditions (ConditionSet.ofByte c)).foldl LinkRec.receive
          ((s.link k).receive (.fixtureJoined n ln f.address f.typeCode true))) ∧
    (∀ t',
      ((∃ reply c p q, s.micros ≤ x.ends ∧ p ≤ 65535 ∧ q ≤ 65535 ∧ reply.take 8 = ackOf a c p q ∧
          (∀ f, (s.slot n).fixture = some f → f.line ≠ ln ∨ f.online = true) ∧
          exec (.replyEnd ln reply) s = t') ∨
        (∃ reply, s.micros ≤ x.ends ∧ ¬WrongAck a reply ∧ (∀ c p q, reply.take 8 ≠ ackOf a c p q) ∧
          exec (.replyEnd ln reply) s = t') ∨
        (x.ends ≤ s.micros ∧ exec (.replyWindowExpiry ln) s = t')) →
      ∃ t, t' = .next t ∧ ExchangeOver s t ln x ∧ t = { s with lines := t.lines } ∧
        (t.line ln).effective = (s.line ln).effective ∧ (t.line ln).conditions = (s.line ln).conditions ∧
        (t.line ln).enrol = (s.line ln).enrol ∧ (t.line ln).joinSuspended = (s.line ln).joinSuspended) ∧
    (∀ reply, s.micros ≤ x.ends → WrongAck a reply →
      ∃ t, exec (.replyEnd ln reply) s = .next t ∧ ExchangeOver s t ln x ∧ LinksHear s t ∧
        t = { s with links := t.links, lines := t.lines } ∧ (t.line ln).effective = (s.line ln).effective ∧
        (t.line ln).conditions = { (s.line ln).conditions with wrongAddress := true } ∧
        (t.line ln).enrol = (s.line ln).enrol ∧ (t.line ln).joinSuspended = (s.line ln).joinSuspended ∧
        ∀ k, Hears (s.link k) (t.link k) (enteredNotices s ln .wrongAddress)) ∧
    (x.ends < s.micros → ∀ reply, exec (.replyEnd ln reply) s = .next s) ∧
    (s.micros < x.ends → exec (.replyWindowExpiry ln) s = .next s)

/-! ## Enrolment -/

/-- R39, R40, R50, R142, R152: the last character of the DROP that opens a FULL enrolment makes every ONLINE slot of
the line MISSING, each with its FIXTURE_GONE of cause DROPPED to all links, brings the effective rate to the requested rate
and goes on to CALLING; that of the DROP that gives a fixture up ends the operation STOPPED: the condition is in the line
condition set, with its LINE_CONDITION where it was absent and then ENROL_DONE to all links, joining is suspended, and the
record is at rest, its bound count kept (log entry 23: the model's inference). Until the last character nothing changes. No
disable is pending in the first two clauses. That a command changes nothing where its time or its condition has not come is
the model's choice (log entry 4). -/
def Obligations.DropsEndTheirExchange : Prop :=
  ∀ (s : State) (ln : LineNo) (x : Exchange) (a : Nat), s.inReset = false → (s.line ln).exchange = some x →
    x.frame = .drop a → x.phase = .frame →
    ((s.line ln).disablePending = false → x.ends ≤ s.micros → (s.line ln).enrol.giveUp = none →
      (s.line ln).enrol.operation ≠ .none →
      ∃ t, exec (.dropDone ln) s = .next t ∧ ExchangeOver s t ln x ∧ OnlineGone s t ln ∧ LinksHear s t ∧
        (∀ k, Hears (s.link k) (t.link k) (allGone s ln .dropped)) ∧
        (t.line ln).effective = (s.line ln).requested ∧ (t.line ln).conditions = (s.line ln).conditions ∧
        (t.line ln).joinSuspended = (s.line ln).joinSuspended ∧
        (t.line ln).enrol = { (s.line ln).enrol with subState := some .calling } ∧
        t = { s with links := t.links, slots := t.slots, lines := t.lines }) ∧
    (∀ g, (s.line ln).disablePending = false → x.ends ≤ s.micros → (s.line ln).enrol.giveUp = some g →
      ∃ t, exec (.dropDone ln) s = .next t ∧ ExchangeOver s t ln x ∧ LinksHear s t ∧
        (∀ k, Hears (s.link k) (t.link k)
          (enteredNotices s ln g.condition ++ [.enrolDone ln (s.line ln).enrol.bound .stopped])) ∧
        (t.line ln).joinSuspended = true ∧ (t.line ln).effective = (s.line ln).effective ∧
        (t.line ln).conditions.has g.condition = true ∧
        (∀ k, k ≠ g.condition → (t.line ln).conditions.has k = (s.line ln).conditions.has k) ∧
        (t.line ln).enrol = EnrolRecord.atRest (s.line ln).enrol.bound ∧
        t = { s with links := t.links, lines := t.lines }) ∧
    (s.micros < x.ends → exec (.dropDone ln) s = .next s)

/-- R22, R39, R41, R42: the end of an arbitration window with no disable pending. All ones ends the operation, with
ENROL_DONE COMPLETE to all links unless it is a joining operation that bound nobody. Any other value is captured: the
lowest address from 1 to 32 that no other unique ID reserves on the line is offered, with attempt 1 and sub-state
ASSIGNING; with none, the fixture is to be given up at address 63 with TABLE_FULL. Nothing else changes. That an operation
that has ended keeps its bound count (log entry 23), and that a command changes nothing where its time or its condition has not
come (log entry 4), are the model's choices. -/
def Obligations.ArbitrationCapturesAnId : Prop :=
  ∀ (s : State) (ln : LineNo) (x : Exchange) (samples : BitVec 40), s.TableSound → s.inReset = false →
    (s.line ln).disablePending = false → (s.line ln).exchange = some x → x.frame = .call → x.phase = .arbitration →
    (x.ends ≤ s.micros →
      ∃ t, exec (.arbitrationEnd ln samples) s = .next t ∧ ExchangeOver s t ln x ∧
        t = { s with links := t.links, lines := t.lines } ∧
        (t.line ln).effective = (s.line ln).effective ∧ (t.line ln).conditions = (s.line ln).conditions ∧
        (t.line ln).joinSuspended = (s.line ln).joinSuspended ∧
        (samples = BitVec.allOnes 40 →
          (t.line ln).enrol = EnrolRecord.atRest (s.line ln).enrol.bound ∧
          HeardBy s t
            (if (s.line ln).enrol.operation = .joining ∧ (s.line ln).enrol.bound = 0 then [] else allLinks)
            (.enrolDone ln (s.line ln).enrol.bound .complete)) ∧
        (samples ≠ BitVec.allOnes 40 → t.links = s.links ∧
          (∀ a, 1 ≤ a → a ≤ 32 →
            (∀ n f, (s.slot n).fixture = some f → f.line = ln → f.address = a → f.uniqueId = samples) →
            (∀ b, 1 ≤ b → b < a →
              ∃ n f, (s.slot n).fixture = some f ∧ f.line = ln ∧ f.address = b ∧ f.uniqueId ≠ samples) →
            (t.line ln).enrol =
              { (s.line ln).enrol with
                captured := some samples, offered := some a, attempt := some 1, subState := some .assigning }) ∧
          ((∀ b, 1 ≤ b → b ≤ 32 →
            ∃ n f, (s.slot n).fixture = some f ∧ f.line = ln ∧ f.address = b ∧ f.uniqueId ≠ samples) →
            (t.line ln).enrol =
              { (s.line ln).enrol with
                captured := some samples, giveUp := some { address := 63, condition := .tableFull } }))) ∧
    (s.micros < x.ends → exec (.arbitrationEnd ln samples) s = .next s)

/-- R43, R160: the reply is a good CAPS from an address: the bytes of its first sixteen characters, whatever their stop bits
(log entry 31), are those of the CAPS frame of that address, checked, and its fields, every one in its range, declare
`caps`. -/
def GoodCaps (address : Nat) (reply : List RxChar) (caps : Caps) : Prop :=
  ∃ (conditions : Byte) (code : Nat),
    (reply.take 16).map (·.byte) = lineBytes address 6#8
      (conditions :: (bytes16 caps.pan ++ bytes16 caps.tilt ++ bytes16 caps.typeCode.toNat ++
        [BitVec.ofNat 8 caps.emitters, BitVec.ofNat 8 code] ++ bytes16 caps.panSpeed ++ bytes16 caps.tiltSpeed)) ∧
    caps.conditions =
      { motorStall := conditions.getLsbD 0, overTemperature := conditions.getLsbD 1
        emitterFault := conditions.getLsbD 2, positionLost := conditions.getLsbD 3, fanFault := conditions.getLsbD 4 } ∧
    caps.pan ≤ 65535 ∧ caps.tilt ≤ 65535 ∧ 3 ≤ caps.emitters ∧ caps.emitters ≤ 5 ∧
    1 ≤ caps.panSpeed ∧ caps.panSpeed ≤ 4095 ∧ 1 ≤ caps.tiltSpeed ∧ caps.tiltSpeed ≤ 4095 ∧
    ((code = 0 ∧ caps.maxRate = .r250) ∨ (code = 1 ∧ caps.maxRate = .r500) ∨ (code = 2 ∧ caps.maxRate = .r1000) ∨
      (code = 3 ∧ caps.maxRate = .r2000))

/-- R19, R21, R23, R43, R44, R53, R125, R139, R151, R160: a good CAPS, the CAPS being the 16 characters of R160 from the
offered address with every field in range, that ends before the window expires binds the captured ID with no disable
pending: back into the MISSING slot that holds it, or, held by none, into the lowest FREE slot. The slot takes what the CAPS
declares and the line and address of the exchange, and as its type index the entry of its type code, or else the
lowest-numbered unused entry, now in use with that code and the default matrix, or else none; its parked values stay, CHANGED
is set, the links hear FIXTURE_JOINED and then the conditions, and the operation goes on to CALLING with one more bound. A
CAPS that ends after the expiry changes nothing (log entry 4). That a CAPS at the very microsecond of the window's end is in
time (log entry 11), and that the stop bits of a CAPS do not count (log entry 31), are the model's choices. -/
def Obligations.GoodCapsBindTheFixture : Prop :=
  ∀ (s : State) (ln : LineNo) (x : Exchange) (u : BitVec 40) (a : Nat) (reply : List RxChar) (caps : Caps) (n : SlotNo),
    s.LinesSound → s.TableSound → s.OffersSound → s.inReset = false → (s.line ln).disablePending = false →
    (s.line ln).exchange = some x → x.frame = .assign u a → x.phase = .window →
    GoodCaps a reply caps →
    (s.micros ≤ x.ends →
      ((∃ f, (s.slot n).fixture = some f ∧ f.uniqueId = u ∧ f.online = false) ∨
        ((∀ m f, (s.slot m).fixture = some f → f.uniqueId ≠ u) ∧ (s.slot n).fixture = none ∧
          ∀ m, m < n → (s.slot m).fixture.isSome = true)) →
      ∃ t index, exec (.capsReceived ln reply) s = .next t ∧ ExchangeOver s t ln x ∧
        (∀ m, m ≠ n → t.slot m = s.slot m) ∧
        t.slot n =
          { s.slot n with
            flags := { (s.slot n).flags with changed := true }
            fixture := some
              { online := true, uniqueId := u, line := ln, address := a, typeCode := caps.typeCode, typeIndex := index
                emitters := caps.emitters, maxRate := caps.maxRate, panSpeed := caps.panSpeed
                tiltSpeed := caps.tiltSpeed, refPan := caps.pan, refTilt := caps.tilt
                refTime := { reading := s.now, old := false }
                lastSent := (s.slot n).fixture.bind (·.lastSent), conditions := caps.conditions, misses := 0
                pollTime := none } } ∧
        (∀ k e, s.typeEntry k = some e → e.code = caps.typeCode →
          (∀ j d, j < k → s.typeEntry j = some d → d.code ≠ caps.typeCode) → index = some k ∧ t.types = s.types) ∧
        ((∀ k e, s.typeEntry k = some e → e.code ≠ caps.typeCode) →
          (∀ k, s.typeEntry k = none → (∀ j, j < k → (s.typeEntry j).isSome = true) →
            index = some k ∧ t.typeEntry k = some { code := caps.typeCode, matrix := defaultMatrix } ∧
              ∀ j, j ≠ k → t.typeEntry j = s.typeEntry j) ∧
          ((∀ k, (s.typeEntry k).isSome = true) → index = none ∧ t.types = s.types)) ∧
        (t.line ln).effective = t.slowest ln ∧ (t.line ln).conditions = (s.line ln).conditions ∧
        (t.line ln).joinSuspended = (s.line ln).joinSuspended ∧
        (t.line ln).enrol =
          { (s.line ln).enrol with
            bound := (s.line ln).enrol.bound + 1, captured := none, offered := none, attempt := none
            subState := some .calling } ∧
        (∀ k, t.link k = (conditionChanges n (((s.slot n).fixture.map (·.conditions)).getD ConditionSet.empty)
            caps.conditions).foldl LinkRec.receive
          ((s.link k).receive (.fixtureJoined n ln a caps.typeCode (s.slot n).fixture.isSome))) ∧
        t = { s with links := t.links, slots := t.slots, types := t.types, lines := t.lines }) ∧
    (x.ends < s.micros → exec (.capsReceived ln reply) s = .next s)

/-- R21, R43, R45, R139, R160: a good CAPS whose ID an ONLINE slot holds, or which is new while no slot is FREE, changes no
slot, and its fixture is to be given up at the offered address with DUPLICATE_ID or TABLE_FULL. A window that expires, or a
reply that ends before and is no good CAPS, sends the ASSIGN a second time after attempt 1, and after attempt 2 gives
the fixture up with ENROL_FAILED; no slot and no miss count changes. A reply that ends after the expiry, good or not, and an
expiry before its time change nothing. No disable is pending. That a command changes nothing where its time or its condition
has not come is the model's choice (log entry 4), and so are that a reply and the expiry are both in time at the very
microsecond of the end (log entry 11) and that the stop bits of a CAPS do not count (log entry 31). -/
def Obligations.RefusedAndFailedCapsChangeNoSlot : Prop :=
  ∀ (s : State) (ln : LineNo) (x : Exchange) (u : BitVec 40) (a : Nat), s.LinesSound → s.TableSound →
    s.inReset = false → (s.line ln).disablePending = false → (s.line ln).exchange = some x → x.frame = .assign u a →
    x.phase = .window →
    (∀ reply caps, GoodCaps a reply caps → s.micros ≤ x.ends →
      ((∃ n f, (s.slot n).fixture = some f ∧ f.uniqueId = u ∧ f.online = true) ∨
        ((∀ n f, (s.slot n).fixture = some f → f.uniqueId ≠ u) ∧ ∀ n, (s.slot n).fixture.isSome = true)) →
      ∃ t, exec (.capsReceived ln reply) s = .next t ∧ ExchangeOver s t ln x ∧ t = { s with lines := t.lines } ∧
        (t.line ln).effective = (s.line ln).effective ∧ (t.line ln).joinSuspended = (s.line ln).joinSuspended ∧
        (t.line ln).conditions = (s.line ln).conditions ∧
        ∃ condition, (t.line ln).enrol =
            { (s.line ln).enrol with giveUp := some { address := a, condition := condition } } ∧
          condition = (if allSlots.any (fun n => ((s.slot n).fixture.map (·.uniqueId)) == some u) then .duplicateId
            else .tableFull)) ∧
    (∀ t', ((∃ reply, (∀ caps, ¬GoodCaps a reply caps) ∧ s.micros ≤ x.ends ∧ exec (.capsFailure ln reply) s = t') ∨
        (x.ends ≤ s.micros ∧ exec (.capsWindowExpiry ln) s = t')) →
      ∃ t, t' = .next t ∧ ExchangeOver s t ln x ∧ t = { s with lines := t.lines } ∧
        (t.line ln).effective = (s.line ln).effective ∧ (t.line ln).joinSuspended = (s.line ln).joinSuspended ∧
        (t.line ln).conditions = (s.line ln).conditions ∧
        (t.line ln).enrol =
          (if (s.line ln).enrol.attempt = some 1 then { (s.line ln).enrol with attempt := some 2 }
          else { (s.line ln).enrol with giveUp := some { address := a, condition := .enrolFailed } })) ∧
    (∀ reply, (∀ caps, ¬GoodCaps a reply caps) → exec (.capsReceived ln reply) s = .next s) ∧
    (∀ reply caps, GoodCaps a reply caps → exec (.capsFailure ln reply) s = .next s) ∧
    (x.ends < s.micros → ∀ reply, exec (.capsReceived ln reply) s = .next s ∧ exec (.capsFailure ln reply) s = .next s) ∧
    (s.micros < x.ends → exec (.capsWindowExpiry ln) s = .next s)

/-- R46, R147: the disable of a line has taken its effects: the line is OFF with nothing pending, no exchange and no
operation, at its requested rate, and no slot of it is ONLINE; no other line has changed. -/
def NowOff (s t : State) (ln : LineNo) : Prop :=
  (t.line ln).seq = .off ∧ (t.line ln).disablePending = false ∧ (t.line ln).exchange = none ∧
    (t.line ln).enrol.operation = .none ∧ (t.line ln).effective = (t.line ln).requested ∧
    (∀ n f, (t.slot n).fixture = some f → f.line = ln → f.online = false) ∧
    (∀ k, k ≠ ln → t.line k = s.line k) ∧
    t = { s with links := t.links, slots := t.slots, types := t.types, lines := t.lines }

/-- The same state with the line enabled and no disable pending: as though the disable had not been taken. -/
def Enabled (s : State) (ln : LineNo) : State :=
  s.setLine ln { s.line ln with enabled := true, disablePending := false }

/-- R39, R50, R142, R147: what the disable's own effects make of a state `u` in which the exchange of the line has ended: an
operation that still runs ends ABANDONED, its bound count kept (log entry 23), the line is OFF at its requested rate, its
ONLINE slots are MISSING, and the links hear of both; nothing else of `u` changes but that the line is not enabled. -/
def DisableFollows (u t : State) (ln : LineNo) : Prop :=
  OnlineGone u t ln ∧ LinksHear u t ∧
    (∀ k, Hears (u.link k) (t.link k) (abandonedNotices u ln ++ allGone u ln .lineOff)) ∧
    (∀ k, k ≠ ln → t.line k = u.line k) ∧
    t.line ln =
      { u.line ln with
        enabled := false
        disablePending := false
        seq := .off
        effective := (u.line ln).requested
        enrol := if (u.line ln).enrol.operation = .none then (u.line ln).enrol
          else EnrolRecord.atRest (u.line ln).enrol.bound } ∧
    t = { u with links := t.links, slots := t.slots, lines := t.lines }

/-- R39, R46, R50, R147: with a disable pending, the exchange in flight runs to its end, and at that end the line is OFF
with no operation and no ONLINE slot: at the end of a reply or of the reply window of a SET, a POLL or an ASSIGN, at the
last character of a DROP, and at the end of an arbitration window. Where the end has no effect of its own on the slots
(the expiry of a POLL's window, and a CAPS that fails or does not come), the links hear ENROL_DONE of the operation
abandoned, if one ran, and FIXTURE_GONE for each slot that was ONLINE, and no more. Whichever command ends the exchange,
it has all the effects that it has with no disable pending (those that the statements about SET, POLL, DROP, arbitration
and CAPS give), and the disable's effects follow on the state these leave. A command that ends no exchange changes
nothing (log entry 4: the model's choice; so are log entries 11 and 31, and 18 and 23 on an operation that has ended).
-/
def Obligations.PendingDisableTakesEffect : Prop :=
  (∀ (s : State) (ln : LineNo) (x : Exchange), s.LinesSound → s.inReset = false → (s.line ln).disablePending = true →
    (s.line ln).exchange = some x →
    (x.frame.slotAddress.isSome = true → x.phase = .window →
      (s.micros ≤ x.ends → ∀ reply, ∃ t, exec (.replyEnd ln reply) s = .next t ∧ NowOff s t ln) ∧
      (x.ends ≤ s.micros → ∃ t, exec (.replyWindowExpiry ln) s = .next t ∧ NowOff s t ln ∧
        ∀ n a, x.frame = .poll n a → OnlineGone s t ln ∧
          ∀ k, Hears (s.link k) (t.link k) (abandonedNotices s ln ++ allGone s ln .lineOff))) ∧
    (∀ a, x.frame = .drop a → x.phase = .frame → x.ends ≤ s.micros →
      ∃ t, exec (.dropDone ln) s = .next t ∧ NowOff s t ln) ∧
    (x.frame = .call → x.phase = .arbitration → x.ends ≤ s.micros →
      ∀ samples, ∃ t, exec (.arbitrationEnd ln samples) s = .next t ∧ NowOff s t ln) ∧
    ∀ u a, x.frame = .assign u a → x.phase = .window →
      (s.micros ≤ x.ends → ∀ reply caps, GoodCaps a reply caps →
        ∃ t, exec (.capsReceived ln reply) s = .next t ∧ NowOff s t ln) ∧
      ∀ t', ((∃ reply, (∀ caps, ¬GoodCaps a reply caps) ∧ s.micros ≤ x.ends ∧ exec (.capsFailure ln reply) s = t') ∨
          (x.ends ≤ s.micros ∧ exec (.capsWindowExpiry ln) s = t')) →
        ∃ t, t' = .next t ∧ NowOff s t ln ∧ OnlineGone s t ln ∧
          ∀ k, Hears (s.link k) (t.link k) (abandonedNotices s ln ++ allGone s ln .lineOff)) ∧
  ∀ (s : State) (c : Instr) (ln : LineNo), s.LinesSound → s.inReset = false → (s.line ln).disablePending = true →
    (c = .replyWindowExpiry ln ∨ (∃ reply, c = .replyEnd ln reply) ∨ c = .dropDone ln ∨
      (∃ v, c = .arbitrationEnd ln v) ∨ (∃ reply, c = .capsReceived ln reply) ∨ c = .capsWindowExpiry ln ∨
      ∃ reply, c = .capsFailure ln reply) →
    ∃ u t, exec c (Enabled s ln) = .next u ∧ exec c s = .next t ∧
      ((t = s ∧ u = Enabled s ln) ∨ (NowOff s t ln ∧ DisableFollows u t ln))

/-- R106: the show clock is the milliseconds since the part left reset, modulo 2^32, and an elapsed time is taken modulo
2^32. A stamp a rule compares becomes old once 2^31 ms have passed since it was set, whichever it is, keeps its reading, and
stays old; nothing else changes; and before then the command changes nothing. From an old stamp the elapsed time is more
than any duration or period, and the same for all. That a command changes nothing where its time or its condition has not
come is the model's choice (log entry 4). -/
def Obligations.StampsBecomeOld : Prop :=
  (∀ (s : State) (n : SlotNo) (g : Group) (x : Crossfade), s.inReset = false → s.fade n g = some x →
    exec (.stampBecomesOld (.crossfade n g)) s = .next
      (s.setFade n g (some { x with start := { x.start with
        old := x.start.old || decide (2147483648 ≤ elapsed x.start.reading s.now) } }))) ∧
  (∀ (s : State) (n : SlotNo) (f : Fixture) (x : LastSent), s.inReset = false → (s.slot n).fixture = some f →
    f.lastSent = some x →
    exec (.stampBecomesOld (.lastSent n)) s = .next (s.setSlot n { s.slot n with fixture := some { f with
      lastSent := some { x with time := { x.time with
        old := x.time.old || decide (2147483648 ≤ elapsed x.time.reading s.now) } } } })) ∧
  (∀ (s : State) (n : SlotNo) (f : Fixture) (x : Stamp), s.inReset = false → (s.slot n).fixture = some f →
    f.pollTime = some x →
    exec (.stampBecomesOld (.poll n)) s = .next (s.setSlot n { s.slot n with fixture := some { f with
      pollTime := some { x with old := x.old || decide (2147483648 ≤ elapsed x.reading s.now) } } })) ∧
  (∀ (s : State) (ln : LineNo) (x : Stamp), s.inReset = false → (s.line ln).lastCall = some x →
    exec (.stampBecomesOld (.lastCall ln)) s = .next (s.setLine ln { s.line ln with
      lastCall := some { x with old := x.old || decide (2147483648 ≤ elapsed x.reading s.now) } })) ∧
  (∀ (s : State) (n : SlotNo) (f : Fixture), s.inReset = false → (s.slot n).fixture = some f →
    exec (.stampBecomesOld (.follower n)) s = .next (s.setSlot n { s.slot n with fixture := some { f with
      refTime := { f.refTime with
        old := f.refTime.old || decide (2147483648 ≤ elapsed f.refTime.reading s.now) } } })) ∧
  (∀ (a : Stamp) (t : Reading), (a.old = false → a.age t = elapsed a.reading t) ∧
    (a.old = true → 600000 < a.age t ∧ ∀ b : Stamp, b.old = true → a.age t = b.age t)) ∧
  (∀ a b : Reading, elapsed a b = (b.toNat + 4294967296 - a.toNat) % 4294967296) ∧
  ∀ s : State, s.now.toNat = (s.micros - s.clockBase) / 1000 % 4294967296

/-! ## What every step keeps -/

/-- R3, R4, R9, R10, R12, R15, R17: every step keeps what the Link Interface promises of its links; and the loss fade of CL0
and CL1 stays 0. -/
def Obligations.LinksStaySound : Prop :=
  ∀ s t : State, step s = .next t → (s.LinksSound → t.LinksSound) ∧ (s.LossFadesSound → t.LossFadesSound)

/-- R37, R135, R137, R147: every step keeps what the Line Sequencers promise of their line records. -/
def Obligations.LinesStaySound : Prop :=
  ∀ s t : State, s.LinesSound → step s = .next t → t.LinesSound

/-- R19, R21, R22, R37, R42, R49: every step keeps the Fixture Table's promises: fields in range, no unique ID in two slots,
no short address twice on a line, and an offered address free for its ID; and the bound count of every line stays 0 to 32,
each fixture bound by the operation that runs being ONLINE. -/
def Obligations.TableStaysSound : Prop :=
  ∀ s t : State, s.LinesSound → s.TableSound → s.OffersSound → step s = .next t →
    t.TableSound ∧ t.OffersSound ∧ (s.BoundsSound → t.BoundsSound)

/-- R55, R56, R90, R93, R97: every step keeps the promises of the claim pool, the step pool and the expiry list; and every
step in use keeps a record of its own, numbered 0 to 4095. Where the times of the steps are in range and no expiry entry is
more than 2^30 ms overdue, every step keeps the expiry list in the order of the time remaining, and no expiry comes to lie
more than 1,200,000 ms ahead. -/
def Obligations.PoolsStaySound : Prop :=
  ∀ s t : State, s.PoolsSound → step s = .next t →
    t.PoolsSound ∧ (s.RecordsSound → t.RecordsSound) ∧
      (s.ValuesSound → s.ExpiriesNear → s.ExpiriesInOrder →
        t.ExpiriesInOrder ∧ ∀ e ∈ t.expiryList, timeLeft t.now e.time ≤ 1200000)

/-- R24, R55, R60, R67, R77, R90, R112, R114, R117, R142, R154: every step keeps the roles of the claims in agreement
with the pair record, the effective rates with the ONLINE slots, and the filtered safety level with the safety state; and,
in a state whose claim pool is sound (its claims are numbered apart), every value within 0–65535 with as many components as
its group has, and every duration, dwell and fade within 600,000. -/
def Obligations.RolesRatesSafetyAndValuesStaySound : Prop :=
  ∀ s t : State, step s = .next t →
    (s.RolesSound → t.RolesSound) ∧ (s.RatesSound → t.RatesSound) ∧ (s.SafetySound → t.SafetySound) ∧
      (s.PoolsSound → s.ValuesSound → t.ValuesSound)

/-- The promises that every step keeps hold at `State.reset`. -/
def Obligations.ResetIsSound : Prop := State.reset.Sound
end

