-- ==== Sys2Proof/Laws/State.lean ====
section
/-! SUPPORT. Laws/State.lean: what each update of the state leaves alone, one lemma per field, and what reading a link, a
slot, a type entry or a line gives after a write to one. -/

namespace Sys2Proof.Machine

/-! ### setLink -/

section
variable (s : State) (l : Link) (r : LinkRec)
@[simp] theorem State.setLink_micros : (s.setLink l r).micros = s.micros := rfl
@[simp] theorem State.setLink_clockBase : (s.setLink l r).clockBase = s.clockBase := rfl
@[simp] theorem State.setLink_supplyInRange : (s.setLink l r).supplyInRange = s.supplyInRange := rfl
@[simp] theorem State.setLink_resetNHigh : (s.setLink l r).resetNHigh = s.resetNHigh := rfl
@[simp] theorem State.setLink_resetNChangedAt : (s.setLink l r).resetNChangedAt = s.resetNChangedAt := rfl
@[simp] theorem State.setLink_inReset : (s.setLink l r).inReset = s.inReset := rfl
@[simp] theorem State.setLink_safeNHigh : (s.setLink l r).safeNHigh = s.safeNHigh := rfl
@[simp] theorem State.setLink_safeNChangedAt : (s.setLink l r).safeNChangedAt = s.safeNChangedAt := rfl
@[simp] theorem State.setLink_safeAsserted : (s.setLink l r).safeAsserted = s.safeAsserted := rfl
@[simp] theorem State.setLink_safety : (s.setLink l r).safety = s.safety := rfl
@[simp] theorem State.setLink_pair : (s.setLink l r).pair = s.pair := rfl
@[simp] theorem State.setLink_slots : (s.setLink l r).slots = s.slots := rfl
@[simp] theorem State.setLink_types : (s.setLink l r).types = s.types := rfl
@[simp] theorem State.setLink_claims : (s.setLink l r).claims = s.claims := rfl
@[simp] theorem State.setLink_stampCount : (s.setLink l r).stampCount = s.stampCount := rfl
@[simp] theorem State.setLink_expiryList : (s.setLink l r).expiryList = s.expiryList := rfl
@[simp] theorem State.setLink_lines : (s.setLink l r).lines = s.lines := rfl
@[simp] theorem State.setLink_pending : (s.setLink l r).pending = s.pending := rfl
@[simp] theorem State.setLink_now : (s.setLink l r).now = s.now := rfl
@[simp] theorem State.setLink_slot (m : SlotNo) : (s.setLink l r).slot m = s.slot m := rfl
@[simp] theorem State.setLink_typeEntry (j : Fin 16) : (s.setLink l r).typeEntry j = s.typeEntry j := rfl
@[simp] theorem State.setLink_line (m : LineNo) : (s.setLink l r).line m = s.line m := rfl
end

/-! ### setSlot -/

section
variable (s : State) (n : SlotNo) (x : Slot)
@[simp] theorem State.setSlot_micros : (s.setSlot n x).micros = s.micros := rfl
@[simp] theorem State.setSlot_clockBase : (s.setSlot n x).clockBase = s.clockBase := rfl
@[simp] theorem State.setSlot_supplyInRange : (s.setSlot n x).supplyInRange = s.supplyInRange := rfl
@[simp] theorem State.setSlot_resetNHigh : (s.setSlot n x).resetNHigh = s.resetNHigh := rfl
@[simp] theorem State.setSlot_resetNChangedAt : (s.setSlot n x).resetNChangedAt = s.resetNChangedAt := rfl
@[simp] theorem State.setSlot_inReset : (s.setSlot n x).inReset = s.inReset := rfl
@[simp] theorem State.setSlot_safeNHigh : (s.setSlot n x).safeNHigh = s.safeNHigh := rfl
@[simp] theorem State.setSlot_safeNChangedAt : (s.setSlot n x).safeNChangedAt = s.safeNChangedAt := rfl
@[simp] theorem State.setSlot_safeAsserted : (s.setSlot n x).safeAsserted = s.safeAsserted := rfl
@[simp] theorem State.setSlot_safety : (s.setSlot n x).safety = s.safety := rfl
@[simp] theorem State.setSlot_links : (s.setSlot n x).links = s.links := rfl
@[simp] theorem State.setSlot_pair : (s.setSlot n x).pair = s.pair := rfl
@[simp] theorem State.setSlot_types : (s.setSlot n x).types = s.types := rfl
@[simp] theorem State.setSlot_claims : (s.setSlot n x).claims = s.claims := rfl
@[simp] theorem State.setSlot_stampCount : (s.setSlot n x).stampCount = s.stampCount := rfl
@[simp] theorem State.setSlot_expiryList : (s.setSlot n x).expiryList = s.expiryList := rfl
@[simp] theorem State.setSlot_lines : (s.setSlot n x).lines = s.lines := rfl
@[simp] theorem State.setSlot_pending : (s.setSlot n x).pending = s.pending := rfl
@[simp] theorem State.setSlot_now : (s.setSlot n x).now = s.now := rfl
@[simp] theorem State.setSlot_link (i : Link) : (s.setSlot n x).link i = s.link i := rfl
@[simp] theorem State.setSlot_typeEntry (j : Fin 16) : (s.setSlot n x).typeEntry j = s.typeEntry j := rfl
@[simp] theorem State.setSlot_line (m : LineNo) : (s.setSlot n x).line m = s.line m := rfl
end

/-! ### setTypeEntry -/

section
variable (s : State) (k : Fin 16) (e : TypeEntry)
@[simp] theorem State.setTypeEntry_micros : (s.setTypeEntry k e).micros = s.micros := rfl
@[simp] theorem State.setTypeEntry_clockBase : (s.setTypeEntry k e).clockBase = s.clockBase := rfl
@[simp] theorem State.setTypeEntry_supplyInRange : (s.setTypeEntry k e).supplyInRange = s.supplyInRange := rfl
@[simp] theorem State.setTypeEntry_resetNHigh : (s.setTypeEntry k e).resetNHigh = s.resetNHigh := rfl
@[simp] theorem State.setTypeEntry_resetNChangedAt : (s.setTypeEntry k e).resetNChangedAt = s.resetNChangedAt := rfl
@[simp] theorem State.setTypeEntry_inReset : (s.setTypeEntry k e).inReset = s.inReset := rfl
@[simp] theorem State.setTypeEntry_safeNHigh : (s.setTypeEntry k e).safeNHigh = s.safeNHigh := rfl
@[simp] theorem State.setTypeEntry_safeNChangedAt : (s.setTypeEntry k e).safeNChangedAt = s.safeNChangedAt := rfl
@[simp] theorem State.setTypeEntry_safeAsserted : (s.setTypeEntry k e).safeAsserted = s.safeAsserted := rfl
@[simp] theorem State.setTypeEntry_safety : (s.setTypeEntry k e).safety = s.safety := rfl
@[simp] theorem State.setTypeEntry_links : (s.setTypeEntry k e).links = s.links := rfl
@[simp] theorem State.setTypeEntry_pair : (s.setTypeEntry k e).pair = s.pair := rfl
@[simp] theorem State.setTypeEntry_slots : (s.setTypeEntry k e).slots = s.slots := rfl
@[simp] theorem State.setTypeEntry_claims : (s.setTypeEntry k e).claims = s.claims := rfl
@[simp] theorem State.setTypeEntry_stampCount : (s.setTypeEntry k e).stampCount = s.stampCount := rfl
@[simp] theorem State.setTypeEntry_expiryList : (s.setTypeEntry k e).expiryList = s.expiryList := rfl
@[simp] theorem State.setTypeEntry_lines : (s.setTypeEntry k e).lines = s.lines := rfl
@[simp] theorem State.setTypeEntry_pending : (s.setTypeEntry k e).pending = s.pending := rfl
@[simp] theorem State.setTypeEntry_now : (s.setTypeEntry k e).now = s.now := rfl
@[simp] theorem State.setTypeEntry_link (i : Link) : (s.setTypeEntry k e).link i = s.link i := rfl
@[simp] theorem State.setTypeEntry_slot (m : SlotNo) : (s.setTypeEntry k e).slot m = s.slot m := rfl
@[simp] theorem State.setTypeEntry_line (m : LineNo) : (s.setTypeEntry k e).line m = s.line m := rfl
end

/-! ### setLine -/

section
variable (s : State) (ln : LineNo) (r : LineRec)
@[simp] theorem State.setLine_micros : (s.setLine ln r).micros = s.micros := rfl
@[simp] theorem State.setLine_clockBase : (s.setLine ln r).clockBase = s.clockBase := rfl
@[simp] theorem State.setLine_supplyInRange : (s.setLine ln r).supplyInRange = s.supplyInRange := rfl
@[simp] theorem State.setLine_resetNHigh : (s.setLine ln r).resetNHigh = s.resetNHigh := rfl
@[simp] theorem State.setLine_resetNChangedAt : (s.setLine ln r).resetNChangedAt = s.resetNChangedAt := rfl
@[simp] theorem State.setLine_inReset : (s.setLine ln r).inReset = s.inReset := rfl
@[simp] theorem State.setLine_safeNHigh : (s.setLine ln r).safeNHigh = s.safeNHigh := rfl
@[simp] theorem State.setLine_safeNChangedAt : (s.setLine ln r).safeNChangedAt = s.safeNChangedAt := rfl
@[simp] theorem State.setLine_safeAsserted : (s.setLine ln r).safeAsserted = s.safeAsserted := rfl
@[simp] theorem State.setLine_safety : (s.setLine ln r).safety = s.safety := rfl
@[simp] theorem State.setLine_links : (s.setLine ln r).links = s.links := rfl
@[simp] theorem State.setLine_pair : (s.setLine ln r).pair = s.pair := rfl
@[simp] theorem State.setLine_slots : (s.setLine ln r).slots = s.slots := rfl
@[simp] theorem State.setLine_types : (s.setLine ln r).types = s.types := rfl
@[simp] theorem State.setLine_claims : (s.setLine ln r).claims = s.claims := rfl
@[simp] theorem State.setLine_stampCount : (s.setLine ln r).stampCount = s.stampCount := rfl
@[simp] theorem State.setLine_expiryList : (s.setLine ln r).expiryList = s.expiryList := rfl
@[simp] theorem State.setLine_pending : (s.setLine ln r).pending = s.pending := rfl
@[simp] theorem State.setLine_now : (s.setLine ln r).now = s.now := rfl
@[simp] theorem State.setLine_link (i : Link) : (s.setLine ln r).link i = s.link i := rfl
@[simp] theorem State.setLine_slot (m : SlotNo) : (s.setLine ln r).slot m = s.slot m := rfl
@[simp] theorem State.setLine_typeEntry (j : Fin 16) : (s.setLine ln r).typeEntry j = s.typeEntry j := rfl
end

/-! ### mapClaim -/

section
variable (s : State) (k : Nat) (change : Claim → Claim)
@[simp] theorem State.mapClaim_micros : (s.mapClaim k change).micros = s.micros := rfl
@[simp] theorem State.mapClaim_clockBase : (s.mapClaim k change).clockBase = s.clockBase := rfl
@[simp] theorem State.mapClaim_supplyInRange : (s.mapClaim k change).supplyInRange = s.supplyInRange := rfl
@[simp] theorem State.mapClaim_resetNHigh : (s.mapClaim k change).resetNHigh = s.resetNHigh := rfl
@[simp] theorem State.mapClaim_resetNChangedAt : (s.mapClaim k change).resetNChangedAt = s.resetNChangedAt := rfl
@[simp] theorem State.mapClaim_inReset : (s.mapClaim k change).inReset = s.inReset := rfl
@[simp] theorem State.mapClaim_safeNHigh : (s.mapClaim k change).safeNHigh = s.safeNHigh := rfl
@[simp] theorem State.mapClaim_safeNChangedAt : (s.mapClaim k change).safeNChangedAt = s.safeNChangedAt := rfl
@[simp] theorem State.mapClaim_safeAsserted : (s.mapClaim k change).safeAsserted = s.safeAsserted := rfl
@[simp] theorem State.mapClaim_safety : (s.mapClaim k change).safety = s.safety := rfl
@[simp] theorem State.mapClaim_links : (s.mapClaim k change).links = s.links := rfl
@[simp] theorem State.mapClaim_pair : (s.mapClaim k change).pair = s.pair := rfl
@[simp] theorem State.mapClaim_slots : (s.mapClaim k change).slots = s.slots := rfl
@[simp] theorem State.mapClaim_types : (s.mapClaim k change).types = s.types := rfl
@[simp] theorem State.mapClaim_stampCount : (s.mapClaim k change).stampCount = s.stampCount := rfl
@[simp] theorem State.mapClaim_expiryList : (s.mapClaim k change).expiryList = s.expiryList := rfl
@[simp] theorem State.mapClaim_lines : (s.mapClaim k change).lines = s.lines := rfl
@[simp] theorem State.mapClaim_pending : (s.mapClaim k change).pending = s.pending := rfl
@[simp] theorem State.mapClaim_now : (s.mapClaim k change).now = s.now := rfl
@[simp] theorem State.mapClaim_link (i : Link) : (s.mapClaim k change).link i = s.link i := rfl
@[simp] theorem State.mapClaim_slot (m : SlotNo) : (s.mapClaim k change).slot m = s.slot m := rfl
@[simp] theorem State.mapClaim_typeEntry (j : Fin 16) : (s.mapClaim k change).typeEntry j = s.typeEntry j := rfl
@[simp] theorem State.mapClaim_line (m : LineNo) : (s.mapClaim k change).line m = s.line m := rfl
end

/-! ### answer -/

section
variable (s : State) (l : Link) (f : Frame) (x : Status) (d : AnswerData)
@[simp] theorem State.answer_micros : (s.answer l f x d).micros = s.micros := rfl
@[simp] theorem State.answer_clockBase : (s.answer l f x d).clockBase = s.clockBase := rfl
@[simp] theorem State.answer_supplyInRange : (s.answer l f x d).supplyInRange = s.supplyInRange := rfl
@[simp] theorem State.answer_resetNHigh : (s.answer l f x d).resetNHigh = s.resetNHigh := rfl
@[simp] theorem State.answer_resetNChangedAt : (s.answer l f x d).resetNChangedAt = s.resetNChangedAt := rfl
@[simp] theorem State.answer_inReset : (s.answer l f x d).inReset = s.inReset := rfl
@[simp] theorem State.answer_safeNHigh : (s.answer l f x d).safeNHigh = s.safeNHigh := rfl
@[simp] theorem State.answer_safeNChangedAt : (s.answer l f x d).safeNChangedAt = s.safeNChangedAt := rfl
@[simp] theorem State.answer_safeAsserted : (s.answer l f x d).safeAsserted = s.safeAsserted := rfl
@[simp] theorem State.answer_safety : (s.answer l f x d).safety = s.safety := rfl
@[simp] theorem State.answer_pair : (s.answer l f x d).pair = s.pair := rfl
@[simp] theorem State.answer_slots : (s.answer l f x d).slots = s.slots := rfl
@[simp] theorem State.answer_types : (s.answer l f x d).types = s.types := rfl
@[simp] theorem State.answer_claims : (s.answer l f x d).claims = s.claims := rfl
@[simp] theorem State.answer_stampCount : (s.answer l f x d).stampCount = s.stampCount := rfl
@[simp] theorem State.answer_expiryList : (s.answer l f x d).expiryList = s.expiryList := rfl
@[simp] theorem State.answer_lines : (s.answer l f x d).lines = s.lines := rfl
@[simp] theorem State.answer_pending : (s.answer l f x d).pending = s.pending := rfl
@[simp] theorem State.answer_now : (s.answer l f x d).now = s.now := rfl
@[simp] theorem State.answer_slot (m : SlotNo) : (s.answer l f x d).slot m = s.slot m := rfl
@[simp] theorem State.answer_typeEntry (j : Fin 16) : (s.answer l f x d).typeEntry j = s.typeEntry j := rfl
@[simp] theorem State.answer_line (m : LineNo) : (s.answer l f x d).line m = s.line m := rfl
end

/-! ### setFade -/

section
variable (s : State) (n : SlotNo) (g : Group) (x : Option Crossfade)
@[simp] theorem State.setFade_micros : (s.setFade n g x).micros = s.micros := rfl
@[simp] theorem State.setFade_clockBase : (s.setFade n g x).clockBase = s.clockBase := rfl
@[simp] theorem State.setFade_supplyInRange : (s.setFade n g x).supplyInRange = s.supplyInRange := rfl
@[simp] theorem State.setFade_resetNHigh : (s.setFade n g x).resetNHigh = s.resetNHigh := rfl
@[simp] theorem State.setFade_resetNChangedAt : (s.setFade n g x).resetNChangedAt = s.resetNChangedAt := rfl
@[simp] theorem State.setFade_inReset : (s.setFade n g x).inReset = s.inReset := rfl
@[simp] theorem State.setFade_safeNHigh : (s.setFade n g x).safeNHigh = s.safeNHigh := rfl
@[simp] theorem State.setFade_safeNChangedAt : (s.setFade n g x).safeNChangedAt = s.safeNChangedAt := rfl
@[simp] theorem State.setFade_safeAsserted : (s.setFade n g x).safeAsserted = s.safeAsserted := rfl
@[simp] theorem State.setFade_safety : (s.setFade n g x).safety = s.safety := rfl
@[simp] theorem State.setFade_links : (s.setFade n g x).links = s.links := rfl
@[simp] theorem State.setFade_pair : (s.setFade n g x).pair = s.pair := rfl
@[simp] theorem State.setFade_types : (s.setFade n g x).types = s.types := rfl
@[simp] theorem State.setFade_claims : (s.setFade n g x).claims = s.claims := rfl
@[simp] theorem State.setFade_stampCount : (s.setFade n g x).stampCount = s.stampCount := rfl
@[simp] theorem State.setFade_expiryList : (s.setFade n g x).expiryList = s.expiryList := rfl
@[simp] theorem State.setFade_lines : (s.setFade n g x).lines = s.lines := rfl
@[simp] theorem State.setFade_pending : (s.setFade n g x).pending = s.pending := rfl
@[simp] theorem State.setFade_now : (s.setFade n g x).now = s.now := rfl
@[simp] theorem State.setFade_link (i : Link) : (s.setFade n g x).link i = s.link i := rfl
@[simp] theorem State.setFade_typeEntry (j : Fin 16) : (s.setFade n g x).typeEntry j = s.typeEntry j := rfl
@[simp] theorem State.setFade_line (m : LineNo) : (s.setFade n g x).line m = s.line m := rfl
end

/-! ### setParked -/

section
variable (s : State) (n : SlotNo) (g : Group) (v : Value)
@[simp] theorem State.setParked_micros : (s.setParked n g v).micros = s.micros := rfl
@[simp] theorem State.setParked_clockBase : (s.setParked n g v).clockBase = s.clockBase := rfl
@[simp] theorem State.setParked_supplyInRange : (s.setParked n g v).supplyInRange = s.supplyInRange := rfl
@[simp] theorem State.setParked_resetNHigh : (s.setParked n g v).resetNHigh = s.resetNHigh := rfl
@[simp] theorem State.setParked_resetNChangedAt : (s.setParked n g v).resetNChangedAt = s.resetNChangedAt := rfl
@[simp] theorem State.setParked_inReset : (s.setParked n g v).inReset = s.inReset := rfl
@[simp] theorem State.setParked_safeNHigh : (s.setParked n g v).safeNHigh = s.safeNHigh := rfl
@[simp] theorem State.setParked_safeNChangedAt : (s.setParked n g v).safeNChangedAt = s.safeNChangedAt := rfl
@[simp] theorem State.setParked_safeAsserted : (s.setParked n g v).safeAsserted = s.safeAsserted := rfl
@[simp] theorem State.setParked_safety : (s.setParked n g v).safety = s.safety := rfl
@[simp] theorem State.setParked_links : (s.setParked n g v).links = s.links := rfl
@[simp] theorem State.setParked_pair : (s.setParked n g v).pair = s.pair := rfl
@[simp] theorem State.setParked_types : (s.setParked n g v).types = s.types := rfl
@[simp] theorem State.setParked_claims : (s.setParked n g v).claims = s.claims := rfl
@[simp] theorem State.setParked_stampCount : (s.setParked n g v).stampCount = s.stampCount := rfl
@[simp] theorem State.setParked_expiryList : (s.setParked n g v).expiryList = s.expiryList := rfl
@[simp] theorem State.setParked_lines : (s.setParked n g v).lines = s.lines := rfl
@[simp] theorem State.setParked_pending : (s.setParked n g v).pending = s.pending := rfl
@[simp] theorem State.setParked_now : (s.setParked n g v).now = s.now := rfl
@[simp] theorem State.setParked_link (i : Link) : (s.setParked n g v).link i = s.link i := rfl
@[simp] theorem State.setParked_typeEntry (j : Fin 16) : (s.setParked n g v).typeEntry j = s.typeEntry j := rfl
@[simp] theorem State.setParked_line (m : LineNo) : (s.setParked n g v).line m = s.line m := rfl
end

/-! ### setChanged -/

section
variable (s : State) (n : SlotNo)
@[simp] theorem State.setChanged_micros : (s.setChanged n).micros = s.micros := rfl
@[simp] theorem State.setChanged_clockBase : (s.setChanged n).clockBase = s.clockBase := rfl
@[simp] theorem State.setChanged_supplyInRange : (s.setChanged n).supplyInRange = s.supplyInRange := rfl
@[simp] theorem State.setChanged_resetNHigh : (s.setChanged n).resetNHigh = s.resetNHigh := rfl
@[simp] theorem State.setChanged_resetNChangedAt : (s.setChanged n).resetNChangedAt = s.resetNChangedAt := rfl
@[simp] theorem State.setChanged_inReset : (s.setChanged n).inReset = s.inReset := rfl
@[simp] theorem State.setChanged_safeNHigh : (s.setChanged n).safeNHigh = s.safeNHigh := rfl
@[simp] theorem State.setChanged_safeNChangedAt : (s.setChanged n).safeNChangedAt = s.safeNChangedAt := rfl
@[simp] theorem State.setChanged_safeAsserted : (s.setChanged n).safeAsserted = s.safeAsserted := rfl
@[simp] theorem State.setChanged_safety : (s.setChanged n).safety = s.safety := rfl
@[simp] theorem State.setChanged_links : (s.setChanged n).links = s.links := rfl
@[simp] theorem State.setChanged_pair : (s.setChanged n).pair = s.pair := rfl
@[simp] theorem State.setChanged_types : (s.setChanged n).types = s.types := rfl
@[simp] theorem State.setChanged_claims : (s.setChanged n).claims = s.claims := rfl
@[simp] theorem State.setChanged_stampCount : (s.setChanged n).stampCount = s.stampCount := rfl
@[simp] theorem State.setChanged_expiryList : (s.setChanged n).expiryList = s.expiryList := rfl
@[simp] theorem State.setChanged_lines : (s.setChanged n).lines = s.lines := rfl
@[simp] theorem State.setChanged_pending : (s.setChanged n).pending = s.pending := rfl
@[simp] theorem State.setChanged_now : (s.setChanged n).now = s.now := rfl
@[simp] theorem State.setChanged_link (i : Link) : (s.setChanged n).link i = s.link i := rfl
@[simp] theorem State.setChanged_typeEntry (j : Fin 16) : (s.setChanged n).typeEntry j = s.typeEntry j := rfl
@[simp] theorem State.setChanged_line (m : LineNo) : (s.setChanged n).line m = s.line m := rfl
end

/-! ### setUrgent -/

section
variable (s : State) (n : SlotNo)
@[simp] theorem State.setUrgent_micros : (s.setUrgent n).micros = s.micros := rfl
@[simp] theorem State.setUrgent_clockBase : (s.setUrgent n).clockBase = s.clockBase := rfl
@[simp] theorem State.setUrgent_supplyInRange : (s.setUrgent n).supplyInRange = s.supplyInRange := rfl
@[simp] theorem State.setUrgent_resetNHigh : (s.setUrgent n).resetNHigh = s.resetNHigh := rfl
@[simp] theorem State.setUrgent_resetNChangedAt : (s.setUrgent n).resetNChangedAt = s.resetNChangedAt := rfl
@[simp] theorem State.setUrgent_inReset : (s.setUrgent n).inReset = s.inReset := rfl
@[simp] theorem State.setUrgent_safeNHigh : (s.setUrgent n).safeNHigh = s.safeNHigh := rfl
@[simp] theorem State.setUrgent_safeNChangedAt : (s.setUrgent n).safeNChangedAt = s.safeNChangedAt := rfl
@[simp] theorem State.setUrgent_safeAsserted : (s.setUrgent n).safeAsserted = s.safeAsserted := rfl
@[simp] theorem State.setUrgent_safety : (s.setUrgent n).safety = s.safety := rfl
@[simp] theorem State.setUrgent_links : (s.setUrgent n).links = s.links := rfl
@[simp] theorem State.setUrgent_pair : (s.setUrgent n).pair = s.pair := rfl
@[simp] theorem State.setUrgent_types : (s.setUrgent n).types = s.types := rfl
@[simp] theorem State.setUrgent_claims : (s.setUrgent n).claims = s.claims := rfl
@[simp] theorem State.setUrgent_stampCount : (s.setUrgent n).stampCount = s.stampCount := rfl
@[simp] theorem State.setUrgent_expiryList : (s.setUrgent n).expiryList = s.expiryList := rfl
@[simp] theorem State.setUrgent_lines : (s.setUrgent n).lines = s.lines := rfl
@[simp] theorem State.setUrgent_pending : (s.setUrgent n).pending = s.pending := rfl
@[simp] theorem State.setUrgent_now : (s.setUrgent n).now = s.now := rfl
@[simp] theorem State.setUrgent_link (i : Link) : (s.setUrgent n).link i = s.link i := rfl
@[simp] theorem State.setUrgent_typeEntry (j : Fin 16) : (s.setUrgent n).typeEntry j = s.typeEntry j := rfl
@[simp] theorem State.setUrgent_line (m : LineNo) : (s.setUrgent n).line m = s.line m := rfl
end

/-! ### mapFixture -/

section
variable (s : State) (n : SlotNo) (change : Fixture → Fixture)
@[simp] theorem State.mapFixture_micros : (s.mapFixture n change).micros = s.micros := rfl
@[simp] theorem State.mapFixture_clockBase : (s.mapFixture n change).clockBase = s.clockBase := rfl
@[simp] theorem State.mapFixture_supplyInRange : (s.mapFixture n change).supplyInRange = s.supplyInRange := rfl
@[simp] theorem State.mapFixture_resetNHigh : (s.mapFixture n change).resetNHigh = s.resetNHigh := rfl
@[simp] theorem State.mapFixture_resetNChangedAt : (s.mapFixture n change).resetNChangedAt = s.resetNChangedAt := rfl
@[simp] theorem State.mapFixture_inReset : (s.mapFixture n change).inReset = s.inReset := rfl
@[simp] theorem State.mapFixture_safeNHigh : (s.mapFixture n change).safeNHigh = s.safeNHigh := rfl
@[simp] theorem State.mapFixture_safeNChangedAt : (s.mapFixture n change).safeNChangedAt = s.safeNChangedAt := rfl
@[simp] theorem State.mapFixture_safeAsserted : (s.mapFixture n change).safeAsserted = s.safeAsserted := rfl
@[simp] theorem State.mapFixture_safety : (s.mapFixture n change).safety = s.safety := rfl
@[simp] theorem State.mapFixture_links : (s.mapFixture n change).links = s.links := rfl
@[simp] theorem State.mapFixture_pair : (s.mapFixture n change).pair = s.pair := rfl
@[simp] theorem State.mapFixture_types : (s.mapFixture n change).types = s.types := rfl
@[simp] theorem State.mapFixture_claims : (s.mapFixture n change).claims = s.claims := rfl
@[simp] theorem State.mapFixture_stampCount : (s.mapFixture n change).stampCount = s.stampCount := rfl
@[simp] theorem State.mapFixture_expiryList : (s.mapFixture n change).expiryList = s.expiryList := rfl
@[simp] theorem State.mapFixture_lines : (s.mapFixture n change).lines = s.lines := rfl
@[simp] theorem State.mapFixture_pending : (s.mapFixture n change).pending = s.pending := rfl
@[simp] theorem State.mapFixture_now : (s.mapFixture n change).now = s.now := rfl
@[simp] theorem State.mapFixture_link (i : Link) : (s.mapFixture n change).link i = s.link i := rfl
@[simp] theorem State.mapFixture_typeEntry (j : Fin 16) : (s.mapFixture n change).typeEntry j = s.typeEntry j := rfl
@[simp] theorem State.mapFixture_line (m : LineNo) : (s.mapFixture n change).line m = s.line m := rfl
end

/-! ### mapEnrol -/

section
variable (s : State) (ln : LineNo) (change : EnrolRecord → EnrolRecord)
@[simp] theorem State.mapEnrol_micros : (s.mapEnrol ln change).micros = s.micros := rfl
@[simp] theorem State.mapEnrol_clockBase : (s.mapEnrol ln change).clockBase = s.clockBase := rfl
@[simp] theorem State.mapEnrol_supplyInRange : (s.mapEnrol ln change).supplyInRange = s.supplyInRange := rfl
@[simp] theorem State.mapEnrol_resetNHigh : (s.mapEnrol ln change).resetNHigh = s.resetNHigh := rfl
@[simp] theorem State.mapEnrol_resetNChangedAt : (s.mapEnrol ln change).resetNChangedAt = s.resetNChangedAt := rfl
@[simp] theorem State.mapEnrol_inReset : (s.mapEnrol ln change).inReset = s.inReset := rfl
@[simp] theorem State.mapEnrol_safeNHigh : (s.mapEnrol ln change).safeNHigh = s.safeNHigh := rfl
@[simp] theorem State.mapEnrol_safeNChangedAt : (s.mapEnrol ln change).safeNChangedAt = s.safeNChangedAt := rfl
@[simp] theorem State.mapEnrol_safeAsserted : (s.mapEnrol ln change).safeAsserted = s.safeAsserted := rfl
@[simp] theorem State.mapEnrol_safety : (s.mapEnrol ln change).safety = s.safety := rfl
@[simp] theorem State.mapEnrol_links : (s.mapEnrol ln change).links = s.links := rfl
@[simp] theorem State.mapEnrol_pair : (s.mapEnrol ln change).pair = s.pair := rfl
@[simp] theorem State.mapEnrol_slots : (s.mapEnrol ln change).slots = s.slots := rfl
@[simp] theorem State.mapEnrol_types : (s.mapEnrol ln change).types = s.types := rfl
@[simp] theorem State.mapEnrol_claims : (s.mapEnrol ln change).claims = s.claims := rfl
@[simp] theorem State.mapEnrol_stampCount : (s.mapEnrol ln change).stampCount = s.stampCount := rfl
@[simp] theorem State.mapEnrol_expiryList : (s.mapEnrol ln change).expiryList = s.expiryList := rfl
@[simp] theorem State.mapEnrol_pending : (s.mapEnrol ln change).pending = s.pending := rfl
@[simp] theorem State.mapEnrol_now : (s.mapEnrol ln change).now = s.now := rfl
@[simp] theorem State.mapEnrol_link (i : Link) : (s.mapEnrol ln change).link i = s.link i := rfl
@[simp] theorem State.mapEnrol_slot (m : SlotNo) : (s.mapEnrol ln change).slot m = s.slot m := rfl
@[simp] theorem State.mapEnrol_typeEntry (j : Fin 16) : (s.mapEnrol ln change).typeEntry j = s.typeEntry j := rfl
end

/-! ### Reading after a write -/

/-- Two links have one number only when they are one link. -/
theorem Link.index_injective {k l : Link} (h : k.index = l.index) : k = l := by
  cases k <;> cases l <;> first | rfl | exact absurd h (by decide)

theorem State.setLink_link (s : State) (l k : Link) (r : LinkRec) :
    (s.setLink l r).link k = if k = l then r else s.link k := by
  by_cases h : k = l
  · subst h; simp [State.setLink, State.link]
  · have hv : ((l.index : Fin 4) : Nat) ≠ (k.index : Fin 4) :=
      fun e => h (Link.index_injective (Fin.ext e)).symm
    simp [State.setLink, State.link, h, hv]

@[simp] theorem State.setLink_link_self (s : State) (l : Link) (r : LinkRec) : (s.setLink l r).link l = r := by
  simp [State.setLink_link]

theorem State.setLink_link_ne (s : State) {l k : Link} (r : LinkRec) (h : k ≠ l) :
    (s.setLink l r).link k = s.link k := by
  simp [State.setLink_link, h]

theorem State.setSlot_slot (s : State) (n m : SlotNo) (x : Slot) :
    (s.setSlot n x).slot m = if m = n then x else s.slot m := by
  by_cases h : m = n
  · subst h; simp [State.setSlot, State.slot]
  · have hv : (n : Nat) ≠ (m : Nat) := fun e => h (Fin.ext e).symm
    simp [State.setSlot, State.slot, h, hv]

@[simp] theorem State.setSlot_slot_self (s : State) (n : SlotNo) (x : Slot) : (s.setSlot n x).slot n = x := by
  simp [State.setSlot_slot]

theorem State.setSlot_slot_ne (s : State) {n m : SlotNo} (x : Slot) (h : m ≠ n) :
    (s.setSlot n x).slot m = s.slot m := by
  simp [State.setSlot_slot, h]

theorem State.setTypeEntry_typeEntry (s : State) (k j : Fin 16) (e : TypeEntry) :
    (s.setTypeEntry k e).typeEntry j = if j = k then some e else s.typeEntry j := by
  by_cases h : j = k
  · subst h; simp [State.setTypeEntry, State.typeEntry]
  · have hv : (k : Nat) ≠ (j : Nat) := fun e => h (Fin.ext e).symm
    simp [State.setTypeEntry, State.typeEntry, h, hv]

theorem State.setLine_line (s : State) (ln m : LineNo) (r : LineRec) :
    (s.setLine ln r).line m = if m = ln then r else s.line m := by
  by_cases h : m = ln
  · subst h; simp [State.setLine, State.line]
  · have hv : (ln : Nat) ≠ (m : Nat) := fun e => h (Fin.ext e).symm
    simp [State.setLine, State.line, h, hv]

@[simp] theorem State.setLine_line_self (s : State) (ln : LineNo) (r : LineRec) : (s.setLine ln r).line ln = r := by
  simp [State.setLine_line]

theorem State.setLine_line_ne (s : State) {ln m : LineNo} (r : LineRec) (h : m ≠ ln) :
    (s.setLine ln r).line m = s.line m := by
  simp [State.setLine_line, h]

/-! ### Writing back what is there, and writing twice -/

@[simp] theorem State.setLink_link_back (s : State) (l : Link) : s.setLink l (s.link l) = s := by
  simp [State.setLink, State.link]

@[simp] theorem State.setSlot_slot_back (s : State) (n : SlotNo) : s.setSlot n (s.slot n) = s := by
  simp [State.setSlot, State.slot]

@[simp] theorem State.setLine_line_back (s : State) (ln : LineNo) : s.setLine ln (s.line ln) = s := by
  simp [State.setLine, State.line]

@[simp] theorem State.setLink_setLink (s : State) (l : Link) (r q : LinkRec) :
    (s.setLink l r).setLink l q = s.setLink l q := by
  simp [State.setLink]

@[simp] theorem State.setSlot_setSlot (s : State) (n : SlotNo) (x y : Slot) :
    (s.setSlot n x).setSlot n y = s.setSlot n y := by
  simp [State.setSlot]

@[simp] theorem State.setLine_setLine (s : State) (ln : LineNo) (r q : LineRec) :
    (s.setLine ln r).setLine ln q = s.setLine ln q := by
  simp [State.setLine]

/-- Two link tables that read alike are one. -/
theorem State.links_ext {s t : State} (h : ∀ l, s.link l = t.link l) : s.links = t.links := by
  refine Vector.ext fun i hi => ?_
  have h0 := h .cl0; have h1 := h .cl1; have h2 := h .cl2; have h3 := h .cl3
  simp only [State.link, Link.index] at h0 h1 h2 h3
  match i, hi with
  | 0, _ => exact h0
  | 1, _ => exact h1
  | 2, _ => exact h2
  | 3, _ => exact h3

/-- Two slot tables that read alike are one. -/
theorem State.slots_ext {s t : State} (h : ∀ n, s.slot n = t.slot n) : s.slots = t.slots :=
  Vector.ext fun i hi => h ⟨i, hi⟩

/-- Two line tables that read alike are one. -/
theorem State.lines_ext {s t : State} (h : ∀ ln, s.line ln = t.line ln) : s.lines = t.lines :=
  Vector.ext fun i hi => h ⟨i, hi⟩

/-! ### The items of the groups -/

theorem PerGroup.set_get {α : Type} (x : PerGroup α) (g h : Group) (v : α) :
    (x.set g v).get h = if h = g then v else x.get h := by
  cases g <;> cases h <;> rfl

@[simp] theorem PerGroup.set_get_self {α : Type} (x : PerGroup α) (g : Group) (v : α) : (x.set g v).get g = v := by
  cases g <;> rfl

@[simp] theorem PerGroup.make_get {α : Type} (f : Group → α) (g : Group) : (PerGroup.make f).get g = f g := by
  cases g <;> rfl

@[simp] theorem PerGroup.set_get_back {α : Type} (x : PerGroup α) (g : Group) : x.set g (x.get g) = x := by
  cases g <;> rfl

/-- Two triples that read alike are one. -/
theorem PerGroup.get_ext {α : Type} {x y : PerGroup α} (h : ∀ g, x.get g = y.get g) : x = y := by
  cases x; cases y
  exact congr (congr (congrArg PerGroup.mk (h .aim)) (h .colour)) (h .level)

end Sys2Proof.Machine
end

