-- ==== Sys2Proof/Laws/Ops.lean ====
section
/-! SUPPORT. Laws/Ops.lean: what the shared operations of Ops, Flags and Operands can do, said once: notices, answers,
takings, and the times of R106 and R117. -/

namespace Sys2Proof.Machine

/-! ### Notices (R8, R9) -/

/-- A link's copy of a notice changes its notice queue and its overflow flag alone. -/
theorem LinkRec.receive_frame (r : LinkRec) (n : Notice) :
    r.receive n = { r with notices := (r.receive n).notices, noticeOverflow := (r.receive n).noticeOverflow } := by
  unfold LinkRec.receive; split <;> [split; skip] <;> rfl

/-- A link that is not LIVE takes no notice. -/
theorem LinkRec.receive_of_not_live {r : LinkRec} (n : Notice) (h : r.state ≠ .live) : r.receive n = r := by
  simp [LinkRec.receive, h]

@[simp] theorem LinkRec.receive_state (r : LinkRec) (n : Notice) : (r.receive n).state = r.state := by
  rw [receive_frame]

/-- A LIVE link has the notice at its tail, or NOTICE_OVERFLOW set. -/
theorem LinkRec.receive_told {r : LinkRec} (n : Notice) (h : r.state = .live) :
    (r.receive n).noticeOverflow = true ∨ (r.receive n).notices.getLast? = some n := by
  simp only [LinkRec.receive, h, if_true]
  split
  · exact .inr (by simp)
  · exact .inl rfl

/-- A notice queue never grows past 16. -/
theorem LinkRec.receive_fits {r : LinkRec} (n : Notice) (h : r.notices.length ≤ 16) :
    (r.receive n).notices.length ≤ 16 := by
  unfold LinkRec.receive
  split
  · split
    · rename_i hl; simp [Config.noticeQueueSize] at hl; simp; omega
    · exact h
  · exact h

theorem State.raiseTo_link (s : State) (l k : Link) (n : Notice) :
    (s.raiseTo l n).link k = if k = l then (s.link k).receive n else s.link k := by
  rw [State.raiseTo, State.setLink_link]; split
  · rename_i h; rw [h]
  · rfl

/-- A notice raised to some links changes the links alone. -/
theorem State.raiseEach_frame (s : State) (ls : List Link) (n : Notice) :
    s.raiseEach ls n = { s with links := (s.raiseEach ls n).links } := by
  induction ls generalizing s with
  | nil => rfl
  | cons l rest ih => exact (ih (s.raiseTo l n)).trans rfl

theorem State.raiseEach_link (s : State) (ls : List Link) (n : Notice) (nodup : ls.Nodup) (k : Link) :
    (s.raiseEach ls n).link k = if k ∈ ls then (s.link k).receive n else s.link k := by
  induction ls generalizing s with
  | nil => rfl
  | cons l rest ih =>
    have hn := List.nodup_cons.mp nodup
    have := ih (s.raiseTo l n) hn.2
    rw [State.raiseEach, List.foldl_cons, ← State.raiseEach, this, State.raiseTo_link]
    by_cases hk : k = l
    · subst hk; simp [hn.1]
    · simp [hk]

/-- R8: a notice raised to all links reaches every link. -/
theorem State.raiseAll_link (s : State) (n : Notice) (k : Link) : (s.raiseAll n).link k = (s.link k).receive n := by
  rw [State.raiseAll, State.raiseEach_link _ _ _ (by decide)]
  cases k <;> rfl

theorem State.raiseAll_frame (s : State) (n : Notice) : s.raiseAll n = { s with links := (s.raiseAll n).links } :=
  State.raiseEach_frame s allLinks n

/-- Several notices raised to all links reach every link in their order. -/
theorem State.raiseAll_foldl_link (s : State) (ns : List Notice) (k : Link) :
    (ns.foldl State.raiseAll s).link k = ns.foldl LinkRec.receive (s.link k) := by
  induction ns generalizing s with
  | nil => rfl
  | cons n rest ih => rw [List.foldl_cons, ih, State.raiseAll_link, List.foldl_cons]

theorem State.raiseAll_foldl_frame (s : State) (ns : List Notice) :
    ns.foldl State.raiseAll s = { s with links := (ns.foldl State.raiseAll s).links } := by
  induction ns generalizing s with
  | nil => rfl
  | cons n rest ih =>
    rw [List.foldl_cons]
    refine (ih (s.raiseAll n)).trans ?_
    rw [State.raiseAll_frame s n]

/-- Any run of notices changes a link's notice queue and overflow flag alone. -/
theorem LinkRec.receive_foldl_frame (r : LinkRec) (ns : List Notice) :
    ns.foldl LinkRec.receive r =
      { r with notices := (ns.foldl LinkRec.receive r).notices
               noticeOverflow := (ns.foldl LinkRec.receive r).noticeOverflow } := by
  induction ns generalizing r with
  | nil => rfl
  | cons n rest ih =>
    rw [List.foldl_cons]
    refine (ih (r.receive n)).trans ?_
    rw [LinkRec.receive_frame r n]

/-! ### Line conditions (R152) -/

/-- A condition put in a set changes the set at that condition alone, and the links. -/
theorem State.putCondition_frame (s : State) (ln : LineNo) (k : LineCondition) (b : Bool) :
    s.putCondition ln k b = { s with links := (s.putCondition ln k b).links, lines := (s.putCondition ln k b).lines } := by
  unfold State.putCondition; split
  · rfl
  · rw [State.raiseAll_frame]; rfl

theorem State.putCondition_line (s : State) (ln m : LineNo) (k : LineCondition) (b : Bool) :
    (s.putCondition ln k b).line m =
      if m = ln then { s.line ln with conditions := (s.line ln).conditions.put k b } else s.line m := by
  unfold State.putCondition
  split
  · rename_i h
    split
    · rename_i e
      subst e
      have : (s.line m).conditions.put k b = (s.line m).conditions := by rw [← h]; cases k <;> rfl
      rw [this]
    · rfl
  · rw [State.raiseAll_frame]
    show (s.setLine ln _).line m = _
    rw [State.setLine_line]

theorem State.putCondition_link (s : State) (ln : LineNo) (k : LineCondition) (b : Bool) (l : Link) :
    (s.putCondition ln k b).link l =
      if (s.line ln).conditions.has k = b then s.link l else (s.link l).receive (.lineCondition ln k b) := by
  unfold State.putCondition; split
  · rfl
  · rw [State.raiseAll_link]; rfl

/-! ### Answers and takings (R4 to R7) -/

theorem State.answer_link (s : State) (l k : Link) (f : Frame) (x : Status) (d : AnswerData) :
    (s.answer l f x d).link k =
      if k = l then
        { s.link l with
          inHand := none
          answer := some { tag := f.tag, kind := f.kind ||| 0x80#8, status := x, flags := s.answerFlags l, data := d }
          requestOverrun := false }
      else s.link k := by
  rw [State.answer, State.setLink_link]

/-- A refusal is an answer and nothing else. -/
theorem State.refuse_answeredOnly (s : State) (l : Link) (f : Frame) (x : Status) :
    AnsweredOnly s (s.refuse l f x) l f x .none := rfl

theorem State.answer_answeredOnly (s : State) (l : Link) (f : Frame) (x : Status) (d : AnswerData) :
    AnsweredOnly s (s.answer l f x d) l f x d := rfl

/-- An answer placed in a state whose link still has the flags of the taking is the answer to that taking. -/
theorem State.answer_answered (s u : State) (l : Link) (f : Frame) (x : Status) (d : AnswerData)
    (h : (u.link l).requestOverrun = (s.link l).requestOverrun) : Answered s (u.answer l f x d) l f x d := by
  refine ⟨by simp [State.answer_link], by simp [State.answer_link], ?_⟩
  rw [State.answer_link, if_pos rfl]
  simp only [answerTo, State.answerFlags, State.answer_safety, State.answer_link, if_true, h]
  rfl

/-- A request row takes the request in hand. -/
theorem State.takeInHand_of_inHand {s : State} {l : Link} {f : Frame} {r : Request} (h : s.InHand l f r)
    (take : Frame → Request → Option State) : s.takeInHand l take = (take f r).getD s := by
  simp [State.takeInHand, h.2.1, h.2.2]

/-- With nothing in hand a request row leaves the state as it is. -/
theorem State.takeInHand_of_none {s : State} {l : Link} (h : (s.link l).inHand = none)
    (take : Frame → Request → Option State) : s.takeInHand l take = s := by
  simp [State.takeInHand, h]

theorem State.whenRunning_of_running {s : State} (h : s.inReset = false) (effect : State → State) :
    s.whenRunning effect = effect s := by
  simp [State.whenRunning, h]

theorem State.whenRunning_of_reset {s : State} (h : s.inReset = true) (effect : State → State) :
    s.whenRunning effect = s := by
  simp [State.whenRunning, h]

/-! ### Slot sets (R5) -/

theorem slotOfNumber_eq_some {k : Nat} {n : SlotNo} : slotOfNumber k = some n ↔ k = n.val := by
  unfold slotOfNumber
  constructor
  · intro h; split at h
    · injection h with h; rw [← h]
    · cases h
  · rintro rfl; simp

theorem nodup_eraseDups {α : Type} [DecidableEq α] : ∀ (k : Nat) (l : List α), l.length ≤ k → l.eraseDups.Nodup
  | 0, [], _ => by simp
  | _ + 1, [], _ => by simp
  | k + 1, b :: l, h => by
    have hl : (l.filter (fun x => !x == b)).length ≤ k := by
      have := List.length_filter_le (fun x => !x == b) l
      simp at h; omega
    rw [List.eraseDups_cons, List.nodup_cons]
    exact ⟨by simp, nodup_eraseDups k _ hl⟩

/-- The slots of a set are given once each. -/
theorem SlotSet.slots_nodup {set : SlotSet} {slots : List SlotNo} (h : set.slots = some slots) : slots.Nodup := by
  unfold SlotSet.slots at h
  rw [Option.map_eq_some_iff] at h
  obtain ⟨a, -, rfl⟩ := h
  exact nodup_eraseDups a.length a le_rfl

theorem mapM_slotOfNumber_eq_some {ks : List Nat} {ns : List SlotNo} :
    ks.mapM slotOfNumber = some ns ↔ ks = ns.map (·.val) := by
  induction ks generalizing ns with
  | nil => cases ns <;> simp
  | cons k rest ih =>
    rw [List.mapM_cons]
    cases hk : slotOfNumber k with
    | none =>
      cases ns with
      | nil => simp
      | cons n ns =>
        have : k ≠ n.val := fun e => by rw [slotOfNumber_eq_some.mpr e] at hk; cases hk
        simp [this]
    | some m =>
      have hm := slotOfNumber_eq_some.mp hk
      cases hr : rest.mapM slotOfNumber with
      | none =>
        cases ns with
        | nil => simp
        | cons n ns =>
          have : rest ≠ ns.map (·.val) := fun e => by rw [ih.mpr e] at hr; cases hr
          simp [this]
      | some ms =>
        have hms := ih.mp hr
        cases ns with
        | nil => simp
        | cons n ns =>
          have hinj : ms.map (·.val) = ns.map (·.val) ↔ ms = ns :=
            ⟨fun h => (List.map_injective_iff.mpr Fin.val_injective) h, fun h => by rw [h]⟩
          simp [hm, hms, hinj, Fin.ext_iff]

/-- R5: a set names a slot outside 0–191, or its slots are the numbers it names. -/
theorem SlotSet.mem_slots {set : SlotSet} {slots : List SlotNo} (h : set.slots = some slots) (n : SlotNo) :
    n ∈ slots ↔ n.val ∈ set.numbers := by
  unfold SlotSet.slots at h
  rw [Option.map_eq_some_iff] at h
  obtain ⟨a, ha, rfl⟩ := h
  rw [mapM_slotOfNumber_eq_some] at ha
  rw [List.mem_eraseDups, ha, List.mem_map]
  exact ⟨fun h => ⟨n, h, rfl⟩, fun ⟨m, hm, e⟩ => Fin.ext e ▸ hm⟩

/-! ### Times (R106, R117) -/

/-- R106: an old stamp's age is the same at every reading, and above every duration and period. -/
theorem Stamp.age_of_old {a : Stamp} (h : a.old = true) (t : Reading) : a.age t = 4294967296 := by
  simp [Stamp.age, h]

theorem elapsed_lt (a b : Reading) : elapsed a b < 4294967296 := (b - a).isLt

theorem elapsed_self (a : Reading) : elapsed a a = 0 := by simp [elapsed]

theorem clampTime_le (ms : Nat) : clampTime ms ≤ 600000 := Nat.min_le_right ..

theorem clampBetween_range {low high : Nat} (v : Nat) (h : low ≤ high) :
    low ≤ clampBetween low high v ∧ clampBetween low high v ≤ high := by
  unfold clampBetween; omega

end Sys2Proof.Machine
end

