-- ==== Sys2Proof/Laws/Claims.lean ====
section
/-! SUPPORT. Laws/Claims.lean: what the shared operations of Claims and Pair can do, said once: the pool, the stacks,
evaluations, and the notices of displacement and restoration. -/

namespace Sys2Proof.Machine

/-! ### The lowest free number (R55, R90) -/

theorem firstFree_spec (used : List Nat) (fuel k : Nat) :
    k ≤ firstFree used fuel k ∧ firstFree used fuel k ≤ k + fuel ∧
      (∀ j, k ≤ j → j < firstFree used fuel k → j ∈ used) ∧
      (firstFree used fuel k < k + fuel → firstFree used fuel k ∉ used) := by
  induction fuel generalizing k with
  | zero => exact ⟨le_rfl, le_rfl, fun j h1 h2 => absurd h1 (by simpa [firstFree] using h2), fun h => absurd h (by simp [firstFree])⟩
  | succ fuel ih =>
    unfold firstFree
    split
    · rename_i hk
      obtain ⟨h1, h2, h3, h4⟩ := ih (k + 1)
      refine ⟨by omega, by omega, fun j hj hl => ?_, fun h => h4 (by omega)⟩
      rcases Nat.eq_or_lt_of_le hj with rfl | hj
      · exact hk
      · exact h3 j hj hl
    · rename_i hk
      exact ⟨le_rfl, by omega, fun j h1 h2 => by omega, fun _ => hk⟩

/-- The number taken is not in use, every number below it is, and it is at most as large as the count in use. -/
theorem firstFree_free (used : List Nat) :
    firstFree used used.length 0 ∉ used ∧ (∀ j < firstFree used used.length 0, j ∈ used) ∧
      firstFree used used.length 0 ≤ used.length := by
  obtain ⟨-, h2, h3, h4⟩ := firstFree_spec used used.length 0
  refine ⟨fun hm => ?_, fun j hj => h3 j (Nat.zero_le j) hj, by omega⟩
  rcases Nat.lt_or_ge (firstFree used used.length 0) used.length with h | h
  · exact h4 (by omega) hm
  · have hsub : List.range (used.length + 1) ⊆ used := fun j hj => by
      rw [List.mem_range] at hj
      rcases Nat.lt_or_ge j (firstFree used used.length 0) with hl | hl
      · exact h3 j (Nat.zero_le j) hl
      · have : j = firstFree used used.length 0 := by omega
        exact this ▸ hm
    have := (List.subperm_of_subset List.nodup_range hsub).length_le
    simp at this

/-! ### The stacks (R57) -/

theorem mem_insertInStack {c d : Claim} {l : List Claim} : d ∈ insertInStack c l ↔ d = c ∨ d ∈ l := by
  induction l with
  | nil => simp [insertInStack]
  | cons e rest ih =>
    unfold insertInStack
    split
    · simp
    · simp only [List.mem_cons, ih]; tauto

/-- The stack of a slot group holds exactly the claims on it. -/
theorem State.mem_stack {s : State} {n : SlotNo} {g : Group} {c : Claim} :
    c ∈ s.stack n g ↔ c ∈ s.claims ∧ c.slot = n ∧ c.group = g := by
  have h : ∀ l : List Claim, c ∈ l.foldr insertInStack [] ↔ c ∈ l := fun l => by
    induction l with
    | nil => simp
    | cons d rest ih => rw [List.foldr_cons, mem_insertInStack, ih, List.mem_cons]
  rw [State.stack, h, List.mem_filter]
  simp

/-- R57: `before` in numbers: the tier, then LIVE before SHADOW, then the later stamp among the LIVE. -/
theorem Claim.before_iff (a b : Claim) :
    a.before b = true ↔
      a.link.tier < b.link.tier ∨
        a.link.tier = b.link.tier ∧
          (a.role = .live ∧ b.role = .shadow ∨ a.role = .live ∧ b.role = .live ∧ b.takenOrder < a.takenOrder) := by
  simp [Claim.before, and_assoc]

/-- `before` is a strict order whose incomparable claims stand alike. -/
theorem Claim.before_trans' {a b c : Claim} (h : a.before b = true) (g : c.before b = false) : a.before c = true := by
  rw [Claim.before_iff] at h ⊢
  have g : ¬c.before b = true := by simp [g]
  rw [Claim.before_iff] at g
  cases ha : a.role <;> cases hb : b.role <;> cases hc : c.role <;> simp_all <;> omega

/-- R57: no claim of a stack stands before one that the stack puts earlier. -/
theorem State.stack_ordered (s : State) (n : SlotNo) (g : Group) :
    (s.stack n g).Pairwise (fun a b => b.before a = false) := by
  have ins : ∀ (c : Claim) (l : List Claim), l.Pairwise (fun a b => b.before a = false) →
      (insertInStack c l).Pairwise (fun a b => b.before a = false) := by
    intro c l h
    induction l with
    | nil => simp [insertInStack]
    | cons d rest ih =>
      rw [List.pairwise_cons] at h
      unfold insertInStack
      split
      · rename_i hcd
        rw [List.pairwise_cons]
        refine ⟨fun e he => ?_, List.pairwise_cons.mpr h⟩
        have hde : e = d ∨ e.before d = false := by
          rcases List.mem_cons.mp he with rfl | he
          · exact .inl rfl
          · exact .inr (h.1 e he)
        cases hec : e.before c with
        | false => rfl
        | true =>
          rw [Claim.before_iff] at hec hcd
          rcases hde with rfl | hde
          · cases hr : e.role <;> cases hc : c.role <;> simp_all <;> omega
          · have hde : ¬e.before d = true := by simp [hde]
            rw [Claim.before_iff] at hde
            cases hr : e.role <;> cases hc : c.role <;> cases hd : d.role <;> simp_all <;> omega
      · rename_i hcd
        rw [List.pairwise_cons]
        refine ⟨fun e he => ?_, ih h.2⟩
        rcases mem_insertInStack.mp he with rfl | he
        · simpa using hcd
        · exact h.1 e he
  unfold State.stack
  generalize s.claims.filter _ = l
  induction l with
  | nil => exact List.Pairwise.nil
  | cons d rest ih => exact ins d _ ih

/-- The owner of a stack is a LIVE claim of its group. -/
theorem State.owner_mem {s : State} {n : SlotNo} {g : Group} {c : Claim} (h : s.owner n g = some c) :
    c ∈ s.claims ∧ c.slot = n ∧ c.group = g ∧ c.role = .live := by
  have hm := State.mem_stack.mp (List.mem_of_find?_eq_some h)
  exact ⟨hm.1, hm.2.1, hm.2.2, by simpa using List.find?_some h⟩

/-- R74: the reported stack holds the claims of the stack, and its owner, where it has one, stands first. -/
theorem State.reportedStack_spec (s : State) (n : SlotNo) (g : Group) :
    (s.reportedStack n g).Perm (s.stack n g) ∧
      ((s.owner n g).isSome = true → (s.reportedStack n g).head? = s.owner n g) := by
  unfold State.reportedStack
  cases h : s.owner n g with
  | none => exact ⟨List.Perm.refl _, fun h' => by cases h'⟩
  | some c => exact ⟨(List.perm_cons_erase (List.mem_of_find?_eq_some h)).symm, fun _ => rfl⟩

/-- The owners depend on the claims alone. -/
theorem State.owner_congr {s t : State} (h : s.claims = t.claims) (n : SlotNo) (g : Group) :
    s.owner n g = t.owner n g := by
  unfold State.owner State.stack; rw [h]

theorem State.claimOf_congr {s t : State} (h : s.claims = t.claims) (l : Link) (n : SlotNo) (g : Group) :
    s.claimOf l n g = t.claimOf l n g := by
  unfold State.claimOf; rw [h]

/-- The claim a link holds on a slot group. -/
theorem State.claimOf_mem {s : State} {l : Link} {n : SlotNo} {g : Group} {c : Claim} (h : s.claimOf l n g = some c) :
    c ∈ s.claims ∧ c.link = l ∧ c.slot = n ∧ c.group = g := by
  have := List.find?_some h
  simp only [Bool.and_eq_true, decide_eq_true_eq] at this
  exact ⟨List.mem_of_find?_eq_some h, this.1.1, this.1.2, this.2⟩

theorem State.claimOf_none {s : State} {l : Link} {n : SlotNo} {g : Group} :
    s.claimOf l n g = none ↔ ∀ c ∈ s.claims, ¬(c.link = l ∧ c.slot = n ∧ c.group = g) := by
  unfold State.claimOf
  rw [List.find?_eq_none]
  refine forall₂_congr fun c _ => ?_
  simp only [Bool.and_eq_true, decide_eq_true_eq, and_assoc]

/-- In a sound pool the claim of a link, a slot and a group is found wherever it stands. -/
theorem State.claimOf_eq {s : State} (p : s.PoolsSound) {c : Claim} (h : c ∈ s.claims) :
    s.claimOf c.link c.slot c.group = some c := by
  cases hc : s.claimOf c.link c.slot c.group with
  | none => exact absurd ⟨rfl, rfl, rfl⟩ (State.claimOf_none.mp hc c h)
  | some d =>
    obtain ⟨hd, h1, h2, h3⟩ := State.claimOf_mem hc
    rw [p.one_per_link d hd c h h1 h2 h3]

/-- In a sound pool a claim number names one claim. -/
theorem State.claim_eq {s : State} (p : s.PoolsSound) {c : Claim} (h : c ∈ s.claims) : s.claim c.number = some c := by
  cases hc : s.claim c.number with
  | none =>
    have := List.find?_eq_none.mp hc c h
    simp at this
  | some d =>
    have hd := List.mem_of_find?_eq_some hc
    have hn : d.number = c.number := by simpa using List.find?_some hc
    exact congrArg some (List.inj_on_of_nodup_map p.numbers_differ hd h hn)

/-! ### Evaluations (R69, R107, R114) -/

theorem State.setFade_fade (s : State) (n m : SlotNo) (g h : Group) (x : Option Crossfade) :
    (s.setFade n g x).fade m h = if m = n ∧ h = g then x else s.fade m h := by
  unfold State.setFade State.fade
  rw [State.setSlot_slot]
  by_cases hm : m = n
  · subst hm; simp [PerGroup.set_get]
  · simp [hm]

/-- R114: a record that runs is running again after an evaluation, and no other record changes. -/
theorem State.evaluated_runningFade (s : State) (n m : SlotNo) (g h : Group) :
    (s.evaluated n g).runningFade m h = s.runningFade m h := by
  unfold State.evaluated
  have key : ∀ x : Option Crossfade, (x = s.runningFade n g) →
      (s.setFade n g x).runningFade m h = s.runningFade m h := by
    rintro x rfl
    unfold State.runningFade
    rw [State.setFade_fade, State.setFade_now]
    by_cases hm : m = n ∧ h = g
    · obtain ⟨rfl, rfl⟩ := hm
      rw [if_pos ⟨rfl, rfl⟩]
      cases hf : s.fade m h with
      | none => rfl
      | some x => by_cases hs : x.spent s.now = true <;> simp [hs]
    · rw [if_neg hm]
  exact key _ rfl

/-- R107: an evaluation changes no present value. -/
theorem State.evaluated_present (s : State) (n m : SlotNo) (g h : Group) :
    (s.evaluated n g).present m h = s.present m h := by
  have hb : (s.evaluated n g).beneath m h = s.beneath m h := by
    unfold State.beneath
    have ho : (s.evaluated n g).owner m h = s.owner m h := State.owner_congr rfl m h
    have hp : ((s.evaluated n g).slot m).parked = (s.slot m).parked := by
      unfold State.evaluated State.setFade
      rw [State.setSlot_slot]; split
      · rename_i e; rw [e]
      · rfl
    rw [ho, hp]; rfl
  unfold State.present
  rw [State.evaluated_runningFade, hb]; rfl

/-! ### Notices of displacement and restoration (R71, R72) -/

theorem State.foldl_raise_hear {f : State → Link → State} (hf : ∀ s l, ∃ n : Option Notice,
      f s l = match n with | none => s | some n => s.raiseTo l n) (ls : List Link) (s : State) :
    LinksHear s (ls.foldl f s) ∧ ls.foldl f s = { s with links := (ls.foldl f s).links } := by
  induction ls generalizing s with
  | nil => exact ⟨fun _ => rfl, rfl⟩
  | cons l rest ih =>
    obtain ⟨h1, h2⟩ := ih (f s l)
    rw [List.foldl_cons]
    obtain ⟨n, hn⟩ := hf s l
    cases n with
    | none => rw [hn] at h1 h2 ⊢; exact ⟨h1, h2⟩
    | some n =>
      dsimp only at hn
      rw [hn] at h1 h2 ⊢
      refine ⟨fun k => ?_, h2.trans rfl⟩
      have hk : (s.raiseTo l n).link k =
          { s.link k with notices := ((s.raiseTo l n).link k).notices
                          noticeOverflow := ((s.raiseTo l n).link k).noticeOverflow } := by
        rw [State.raiseTo_link]; split
        · exact LinkRec.receive_frame _ _
        · rfl
      have := h1 k
      rw [hk] at this
      exact this

/-- R71: CLAIM_DISPLACED changes notices alone. -/
theorem State.raiseDisplaced_hear (s : State) (l : Link) (g : Group) (lost : List (Link × SlotNo)) :
    LinksHear s (s.raiseDisplaced l g lost) ∧
      s.raiseDisplaced l g lost = { s with links := (s.raiseDisplaced l g lost).links } := by
  refine State.foldl_raise_hear (fun s k => ?_) _ s
  by_cases h : ((lost.filter (fun x => decide (x.1 = k))).map (·.2)).isEmpty = true
  · exact ⟨none, by simp only [h, if_true]⟩
  · exact ⟨some _, by simp only [h]; rfl⟩

/-- R72: CLAIM_RESTORED changes notices alone. -/
theorem State.raiseRestored_hear (s : State) (cause : RestoreCause) (gains : List Gain) :
    LinksHear s (s.raiseRestored cause gains) ∧
      s.raiseRestored cause gains = { s with links := (s.raiseRestored cause gains).links } := by
  refine State.foldl_raise_hear (fun s k => ?_) _ s
  by_cases h : (gains.filter (fun x => decide (x.link = k))).isEmpty = true
  · exact ⟨none, by simp only [h, if_true]⟩
  · exact ⟨some _, by simp only [h]; rfl⟩

/-! ### Removals (R66) -/

/-- A removal takes the claim and its expiry entry from the lists, and touches only its own slot. -/
theorem State.removeClaim_frame (s : State) (c : Claim) (fade : Nat) :
    (s.removeClaim c fade).1 =
      { s.dropClaim c.number with slots := (s.removeClaim c fade).1.slots } := by
  unfold State.removeClaim
  dsimp only
  split
  · split <;> rfl
  · split <;> rfl

theorem State.removeClaim_slot_ne (s : State) (c : Claim) (fade : Nat) {m : SlotNo} (h : m ≠ c.slot) :
    (s.removeClaim c fade).1.slot m = s.slot m := by
  have hd : ∀ t : State, t.slots = s.slots → t.slot m = s.slot m := fun t ht => by unfold State.slot; rw [ht]
  unfold State.removeClaim
  dsimp only
  split
  · split <;>
      simp [State.setChanged, State.setFade, State.setParked, State.setSlot_slot, h, hd (s.dropClaim c.number) rfl]
  · split
    · simp [State.setChanged, State.setFade, State.setSlot_slot, h, hd (s.dropClaim c.number) rfl]
    · exact hd _ rfl

/-! ### Role changes (R70, R77) -/

/-- R60, R77: the roles that the pair record gives are the roles that the claims take. -/
theorem State.withRoles_roles (s : State) (p : Pair) : (s.withRoles p).RolesSound := by
  intro c hc
  obtain ⟨d, -, rfl⟩ := List.mem_map.mp hc
  rfl

/-- A role change touches nothing but the pair record, the claims' roles, crossfade records, CHANGED and notices. -/
theorem State.changeRoles_frame (s : State) (p : Pair) (fade : Nat) :
    s.changeRoles p fade =
      { s.withRoles p with links := (s.changeRoles p fade).links, slots := (s.changeRoles p fade).slots } := by
  have fold : ∀ (gs : List (SlotNo × Group)) (acc : State × List Gain),
      (gs.foldl (s.roleChangeOn fade) acc).1 =
        { acc.1 with slots := (gs.foldl (s.roleChangeOn fade) acc).1.slots } := by
    intro gs
    induction gs with
    | nil => intro acc; rfl
    | cons x rest ih =>
      intro acc
      rw [List.foldl_cons]
      refine (ih _).trans ?_
      have : (s.roleChangeOn fade acc x).1 = { acc.1 with slots := (s.roleChangeOn fade acc x).1.slots } := by
        unfold State.roleChangeOn; split <;> rfl
      rw [this]
  have join : ∀ w u v : State, u = { w with slots := u.slots } → v = { u with links := v.links } →
      v = { w with links := v.links, slots := v.slots } := by
    intro w u v h1 h2
    cases u; cases v; cases w
    simp only [State.mk.injEq] at *
    simp_all
  exact join _ _ _ (fold s.consoleGroups (s.withRoles p, [])) (State.raiseRestored_hear _ _ _).2

end Sys2Proof.Machine
end

