-- ==== Sys2Proof/Laws/Lines.lean ====
section
/-! SUPPORT. Laws/Lines.lean: what the shared operations of Fixtures, Lines and Replies can do, said once: losing
fixtures, the end of an operation and of an exchange, the scheduler's pick, and the judging of replies. -/

namespace Sys2Proof.Machine

/-! ### The slots of a line -/

theorem State.mem_slotsOf {s : State} {ln : LineNo} {n : SlotNo} :
    n ∈ s.slotsOf ln ↔ ∃ f, (s.slot n).fixture = some f ∧ f.line = ln := by
  unfold State.slotsOf Slot.boundTo
  rw [List.mem_filter]
  cases hf : (s.slot n).fixture with
  | none => simp
  | some f => simp [allSlots]

theorem Slot.state_online {x : Slot} : x.state = .online ↔ ∃ f, x.fixture = some f ∧ f.online = true := by
  unfold Slot.state
  cases x.fixture with
  | none => simp
  | some f => cases hf : f.online <;> simp [hf]

theorem Slot.state_missing {x : Slot} : x.state = .missing ↔ ∃ f, x.fixture = some f ∧ f.online = false := by
  unfold Slot.state
  cases x.fixture with
  | none => simp
  | some f => cases hf : f.online <;> simp [hf]

theorem Slot.state_free {x : Slot} : x.state = .free ↔ x.fixture = none := by
  unfold Slot.state
  cases x.fixture with
  | none => simp
  | some f => cases hf : f.online <;> simp [hf]

theorem State.mem_onlineOf {s : State} {ln : LineNo} {n : SlotNo} :
    n ∈ s.onlineOf ln ↔ ∃ f, (s.slot n).fixture = some f ∧ f.line = ln ∧ f.online = true := by
  unfold State.onlineOf
  rw [List.mem_filter, State.mem_slotsOf, decide_eq_true_eq, Slot.state_online]
  constructor
  · rintro ⟨⟨f, hf, hl⟩, g, hg, ho⟩
    rw [hf] at hg; injection hg with hg; subst hg
    exact ⟨f, hf, hl, ho⟩
  · rintro ⟨f, hf, hl, ho⟩
    exact ⟨⟨f, hf, hl⟩, f, hf, ho⟩

theorem State.nodup_onlineOf (s : State) (ln : LineNo) : (s.onlineOf ln).Nodup :=
  ((List.nodup_finRange 192).filter _).filter _

/-! ### Losing fixtures (R50) -/

/-- What becomes of a slot that goes MISSING. -/
def Slot.lost (x : Slot) : Slot :=
  { x with fixture := x.fixture.map (fun f => { f with online := false, pollTime := none }) }

theorem State.makeMissing_frame (s : State) (cause : GoneCause) (n : SlotNo) :
    s.makeMissing cause n =
      { s with links := (s.makeMissing cause n).links, slots := (s.makeMissing cause n).slots } := by
  unfold State.makeMissing; split
  · rfl
  · rw [State.raiseAll_frame]; rfl

theorem State.makeMissing_slot (s : State) (cause : GoneCause) (n m : SlotNo) :
    (s.makeMissing cause n).slot m = if m = n then (s.slot n).lost else s.slot m := by
  unfold State.makeMissing
  split
  · rename_i h
    split
    · rename_i e; subst e; simp only [Slot.lost, h, Option.map_none]; rw [← h]
    · rfl
  · rename_i f h
    rw [State.raiseAll_frame]
    show (s.setSlot n _).slot m = _
    rw [State.setSlot_slot]
    simp [Slot.lost, h]

/-- Only the notices of the links change. -/
theorem State.makeMissing_hear (s : State) (cause : GoneCause) (n : SlotNo) : LinksHear s (s.makeMissing cause n) := by
  intro k
  unfold State.makeMissing
  split
  · rfl
  · rw [State.raiseAll_link]
    exact LinkRec.receive_frame (s.link k) _

theorem LinksHear.refl (s : State) : LinksHear s s := fun _ => rfl

theorem LinksHear.trans {s t u : State} (h : LinksHear s t) (g : LinksHear t u) : LinksHear s u := fun k => by
  have h1 := h k; have g1 := g k
  rw [h1] at g1; exact g1

/-- Several slots going MISSING: every slot of the list is lost, and nothing else but notices changes. -/
theorem State.makeMissing_foldl (cause : GoneCause) (ns : List SlotNo) (nodup : ns.Nodup) (s : State) :
    let t := ns.foldl (State.makeMissing · cause) s
    t = { s with links := t.links, slots := t.slots } ∧ LinksHear s t ∧
      ∀ m, t.slot m = if m ∈ ns then (s.slot m).lost else s.slot m := by
  induction ns generalizing s with
  | nil => exact ⟨rfl, LinksHear.refl s, fun m => rfl⟩
  | cons n rest ih =>
    have hn := List.nodup_cons.mp nodup
    obtain ⟨hf, hh, hs⟩ := ih hn.2 (s.makeMissing cause n)
    rw [List.foldl_cons]
    refine ⟨hf.trans (by rw [State.makeMissing_frame s cause n]), (s.makeMissing_hear cause n).trans hh, fun m => ?_⟩
    rw [hs m, State.makeMissing_slot]
    by_cases hm : m = n
    · subst hm; simp [hn.1]
    · simp [hm]

/-! ### Operations (R39) -/

/-- The end of an operation puts its record at rest and its line IDLE, and otherwise changes notices alone. -/
theorem State.endOperation_frame (s : State) (ln : LineNo) (o : EnrolOutcome) :
    s.endOperation ln o =
      { s.setLine ln { s.line ln with enrol := EnrolRecord.atRest (s.line ln).enrol.bound, seq := .idle } with
        links := (s.endOperation ln o).links } := by
  unfold State.endOperation; dsimp only; split
  · rfl
  · rw [State.raiseAll_frame]

theorem State.endOperation_link (s : State) (ln : LineNo) (o : EnrolOutcome) (k : Link) :
    (s.endOperation ln o).link k =
      if (s.line ln).enrol.operation = .joining ∧ o = .complete ∧ (s.line ln).enrol.bound = 0 then s.link k
      else (s.link k).receive (.enrolDone ln (s.line ln).enrol.bound o) := by
  unfold State.endOperation; dsimp only; split
  · rfl
  · rw [State.raiseAll_link]; rfl

/-! ### The effective rate (R142) -/

/-- The effective rate is recomputed from the requested rate and the slots alone. -/
theorem State.slowest_congr {s t : State} (ln : LineNo) (h : s.slots = t.slots)
    (hr : (s.line ln).requested = (t.line ln).requested) : s.slowest ln = t.slowest ln := by
  unfold State.slowest State.onlineOf State.slotsOf State.slot
  rw [h, hr]

/-- With no ONLINE slot on the line the effective rate is the requested rate. -/
theorem State.slowest_of_none_online {s : State} {ln : LineNo} (h : s.onlineOf ln = []) :
    s.slowest ln = (s.line ln).requested := by
  simp [State.slowest, h]

/-! ### The end of an exchange (R137, R141, R147) -/

/-- With no disable pending the line begins its rest, ENROLLING while an operation runs and IDLE otherwise. -/
theorem State.endExchange_not_pending {s : State} {ln : LineNo} {x : Exchange} (h : (s.line ln).disablePending = false)
    (hx : (s.line ln).exchange = some x) :
    s.endExchange ln = s.setLine ln
      { s.line ln with
        exchange := none
        restRate := x.rate
        restedAt := s.micros + 2 * x.rate.charMicros
        seq := if (s.line ln).enrol.operation = .none then .idle else .enrolling } := by
  simp [State.endExchange, h, hx, restMicros]

/-! ### Abandoning and going OFF (R147) -/

/-- The disable takes its effects: the line is OFF, its ONLINE slots are MISSING, and its rate is the requested rate. -/
theorem State.goOff_line (s : State) (ln : LineNo) :
    (s.goOff ln).line ln =
      { s.line ln with seq := .off, disablePending := false, effective := (s.line ln).requested } := by
  unfold State.goOff
  dsimp only
  obtain ⟨hf, -, hs⟩ := State.makeMissing_foldl .lineOff
    ((s.setLine ln { s.line ln with seq := .off, disablePending := false }).onlineOf ln) (State.nodup_onlineOf _ _)
    (s.setLine ln { s.line ln with seq := .off, disablePending := false })
  generalize List.foldl _ _ _ = t at hf hs ⊢
  have hl : t.line ln = { s.line ln with seq := .off, disablePending := false } := by
    rw [hf]; exact State.setLine_line_self _ _ _
  rw [State.recompute, State.setLine_line_self, State.slowest_of_none_online, hl]
  rw [List.eq_nil_iff_forall_not_mem]
  intro m hm
  obtain ⟨f, hf1, hf2, hf3⟩ := State.mem_onlineOf.mp hm
  rw [hs m] at hf1
  split at hf1
  · simp only [Slot.lost, Option.map_eq_some_iff] at hf1
    obtain ⟨g, -, rfl⟩ := hf1
    cases hf3
  · rename_i hn
    exact hn (State.mem_onlineOf.mpr ⟨f, hf1, hf2, hf3⟩)

theorem State.goOff_slot (s : State) (ln : LineNo) (m : SlotNo) :
    (s.goOff ln).slot m = if m ∈ s.onlineOf ln then (s.slot m).lost else s.slot m := by
  unfold State.goOff
  dsimp only
  obtain ⟨-, -, hs⟩ := State.makeMissing_foldl .lineOff
    ((s.setLine ln { s.line ln with seq := .off, disablePending := false }).onlineOf ln) (State.nodup_onlineOf _ _)
    (s.setLine ln { s.line ln with seq := .off, disablePending := false })
  exact hs m

/-! ### The scheduler (R143, R144) -/

/-- R144: what is taken is a member, none has waited longer, and none as long stands before it. -/
theorem longestWaiting_spec {l : List (SlotNo × Nat)} {x : SlotNo × Nat} (h : longestWaiting l = some x) :
    x ∈ l ∧ ∀ y ∈ l, y.2 ≤ x.2 := by
  induction l generalizing x with
  | nil => cases h
  | cons a rest ih =>
    unfold longestWaiting at h
    split at h
    · injection h with h; subst h
      rename_i hr
      have : rest = [] := by
        cases rest with
        | nil => rfl
        | cons b r => unfold longestWaiting at hr; split at hr <;> [cases hr; (split at hr <;> cases hr)]
      simp [this]
    · rename_i y hr
      obtain ⟨hm, hle⟩ := ih hr
      split at h <;> injection h with h <;> subst h
      · refine ⟨List.mem_cons_self, fun z hz => ?_⟩
        rcases List.mem_cons.mp hz with rfl | hz
        · exact le_rfl
        · exact (hle z hz).trans ‹_›
      · refine ⟨List.mem_cons_of_mem _ hm, fun z hz => ?_⟩
        rcases List.mem_cons.mp hz with rfl | hz
        · omega
        · exact hle z hz

theorem longestWaiting_none {l : List (SlotNo × Nat)} : longestWaiting l = none ↔ l = [] := by
  cases l with
  | nil => simp [longestWaiting]
  | cons a rest =>
    unfold longestWaiting
    split <;> [simp; (split <;> simp)]

/-- R143: the members of a class of a line. -/
theorem State.mem_members {s : State} {ln : LineNo} {k : SlotClass} {n : SlotNo} {w : Nat} :
    (n, w) ∈ s.members ln k ↔
      ∃ f, (s.slot n).fixture = some f ∧ f.line = ln ∧ s.memberOf n f k = true ∧ w = f.waited k s.now := by
  unfold State.members
  rw [List.mem_filterMap]
  constructor
  · rintro ⟨m, hm, h⟩
    obtain ⟨g, hg, hl⟩ := State.mem_slotsOf.mp hm
    rw [hg] at h
    dsimp only at h
    split at h
    · injection h with h; injection h with h1 h2; subst h1; subst h2
      exact ⟨g, hg, hl, ‹_›, rfl⟩
    · cases h
  · rintro ⟨f, hf, hl, hm, rfl⟩
    exact ⟨n, State.mem_slotsOf.mpr ⟨f, hf, hl⟩, by simp [hf, hm]⟩

/-! ### Replies (R140, R160) -/

theorem number16_bytes16 {n : Nat} (h : n ≤ 65535) :
    number16 (BitVec.ofNat 8 (n / 256)) (BitVec.ofNat 8 n) = n := by
  simp [number16, BitVec.toNat_ofNat]; omega

/-- The good ACK from an address is judged good, with what it carries. -/
theorem judgeAck_good {a p q : Nat} {reply : List RxChar} {c : Byte} (ha : a < 256) (hp : p ≤ 65535) (hq : q ≤ 65535)
    (hr : reply.take 8 = asCharacters (lineBytes a 3#8 (c :: (bytes16 p ++ bytes16 q)))) :
    judgeAck a reply = .good (ConditionSet.ofByte c) p q := by
  have h1 := number16_bytes16 hp
  have h2 := number16_bytes16 hq
  have h3 : a % 256 = a := Nat.mod_eq_of_lt ha
  unfold judgeAck
  rw [hr]
  simp [asCharacters, lineBytes, bytes16, h1, h2, h3]

/-- A checked ACK from another address, whatever its stop bits. -/
theorem judgeAck_other {a b p q : Nat} {reply : List RxChar} {c : Byte} (hb : b < 256) (h : b ≠ a)
    (hr : (reply.take 8).map (·.byte) = lineBytes b 3#8 (c :: (bytes16 p ++ bytes16 q))) :
    judgeAck a reply = .wrongAddress := by
  have h3 : b % 256 = b := Nat.mod_eq_of_lt hb
  unfold judgeAck
  rw [hr]
  simp [lineBytes, bytes16, h3, h]

end Sys2Proof.Machine
end

