-- ==== Sys2Proof/Laws/Profile.lean ====
section
/-! SUPPORT. Laws/Profile.lean: the small facts about the arithmetic of Profile, Aim, Colour and Bytes from which the
statements about values are proved. -/

namespace Sys2Proof.Machine

/-! ### Fractions and curves (R110, R111) -/

/-- R110: below the end of a move the fraction is at most 65535. -/
theorem fraction_le {e d : Nat} (h : e < d) : fraction e d ≤ 65535 := by
  unfold fraction
  have : e * 65536 / d < 65536 := Nat.div_lt_of_lt_mul (by nlinarith)
  omega

theorem fraction_mono {e e' d : Nat} (h : e ≤ e') : fraction e d ≤ fraction e' d :=
  Nat.div_le_div_right (Nat.mul_le_mul_right _ h)

@[simp] theorem shape_linear (f : Nat) : shape .linear f = f := rfl

/-! ### Interpolation (R112) -/

/-- The value is the start value and the rounded share of the move. -/
theorem interpolate_eq (start target g : Nat) (h2 : g ≤ 65536) :
    ((interpolate start target g : Nat) : Int) =
      start + (((target : Int) - start) * g + 32768) / 65536 := by
  unfold interpolate
  apply Int.toNat_of_nonneg
  have h : (-(start : Int)) ≤ (((target : Int) - start) * g + 32768) / 65536 := by
    rw [Int.le_ediv_iff_mul_le (by norm_num)]
    have h3 : (0 : Int) ≤ target * g := by positivity
    have h4 : (start : Int) * g ≤ start * 65536 := by
      have : (g : Int) ≤ 65536 := by exact_mod_cast h2
      nlinarith [Int.natCast_nonneg start]
    nlinarith
  omega

theorem interpolateAll_length (a b : Value) (g : Nat) :
    (interpolateAll a b g).length = min a.length b.length := by
  simp [interpolateAll]

/-! ### Values of steps and records (R108, R109, R114) -/

theorem RunningStep.value_of_ended {r : RunningStep} {t : Reading} (h : r.step.duration ≤ elapsed r.startTime t) :
    r.value t = r.step.target := by
  simp [RunningStep.value, h]

theorem Claim.ownValue_of_rest {c : Claim} (h : c.running = none) (t : Reading) : c.ownValue t = c.rest := by
  simp [Claim.ownValue, h]

/-! ### Aim (R120) -/

/-- R120: a component is limited exactly when what it emits is not the present value. -/
theorem isLimited_iff (present reference allowed : Nat) :
    isLimited present reference allowed = true ↔ limitMove present reference allowed ≠ present := by
  unfold isLimited limitMove
  simp only [Bool.or_eq_true, decide_eq_true_eq]
  constructor
  · rintro (h | h)
    · rw [if_pos h]; omega
    · rw [if_neg (by omega), if_pos h]; omega
  · intro h
    by_contra hn
    rw [if_neg (by omega), if_neg (by omega)] at h
    exact h rfl

/-! ### Colour (R129 to R132) -/

theorem largest_spec (raws : List Nat) :
    (∀ raw ∈ raws, raw ≤ largest raws) ∧ (largest raws = 0 ∨ largest raws ∈ raws) := by
  have h : ∀ (l : List Nat) (m : Nat),
      (m ≤ l.foldl max m) ∧ (∀ raw ∈ l, raw ≤ l.foldl max m) ∧ (l.foldl max m = m ∨ l.foldl max m ∈ l) := by
    intro l
    induction l with
    | nil => intro m; simp
    | cons a rest ih =>
      intro m
      obtain ⟨h1, h2, h3⟩ := ih (max m a)
      rw [List.foldl_cons]
      refine ⟨by omega, fun raw hr => ?_, ?_⟩
      · rcases List.mem_cons.mp hr with rfl | hr
        · omega
        · exact h2 raw hr
      · rcases h3 with h3 | h3
        · rcases Nat.le_total m a with hm | hm
          · right; rw [h3, Nat.max_eq_right hm]; simp
          · left; rw [h3, Nat.max_eq_left hm]
        · right; exact List.mem_cons_of_mem _ h3
  exact ⟨(h raws 0).2.1, (h raws 0).2.2⟩

theorem rawLevels_length (m : Matrix) (emitters c1 c2 c3 : Nat) :
    (rawLevels m emitters c1 c2 c3).length = min emitters 5 := by
  simp [rawLevels]

theorem gamutScale_length (raws : List Nat) : (gamutScale raws).length = raws.length := by
  unfold gamutScale; split <;> simp

/-! ### Bytes (section 2.3 of the introduction) -/

theorem bytes16_length (n : Nat) : (bytes16 n).length = 2 := rfl
theorem bytes32_length (n : Nat) : (bytes32 n).length = 4 := rfl
theorem bytes40_length (n : Nat) : (bytes40 n).length = 5 := rfl

/-- A line frame has its address, its kind, its payload and its check. -/
theorem lineBytes_length (address : Nat) (kind : Byte) (payload : List Byte) :
    (lineBytes address kind payload).length = payload.length + 3 := by
  simp [lineBytes]

/-- R160: how many characters each frame has. -/
theorem LineFrame.bytes_length (f : LineFrame) :
    f.bytes.length =
      match f with
      | .set _ _ _ _ levels => 7 + 2 * levels.length
      | .poll _ _ => 3
      | .drop _ => 3
      | .call => 3
      | .assign _ _ => 9 := by
  cases f with
  | set n a p t levels =>
    have : (levels.flatMap bytes16).length = 2 * levels.length := by
      induction levels with
      | nil => rfl
      | cons x rest ih => simp only [List.flatMap_cons, List.length_append, bytes16_length, ih, List.length_cons]; omega
    simp only [LineFrame.bytes, lineBytes_length, List.length_append, bytes16_length, this]; omega
  | poll n a => rfl
  | drop a => rfl
  | call => rfl
  | assign x a => rfl

end Sys2Proof.Machine
end

