-- ==== Sys2Proof/Laws/Replies.lean ====
section
/-! SUPPORT. Laws/Replies.lean: what the operations of Replies and the binding of a fixture can do, said once. -/

namespace Sys2Proof.Machine

/-! ### Old stamps (R106) -/

theorem Stamp.aged_eq (a : Stamp) (t : Reading) :
    a.aged t = { a with old := a.old || decide (2147483648 ≤ elapsed a.reading t) } := by
  unfold Stamp.aged; split
  · simp [*]
  · rename_i h; simp [h]

/-! ### Acknowledgements and misses (R49 to R52) -/

/-- A good ACK to a SET changes its slot and notices alone. -/
theorem State.ackSet_frame (s : State) (n : SlotNo) (f : Fixture) (c : ConditionSet) (p q : Nat) :
    s.ackSet n f c p q = { s with links := (s.ackSet n f c p q).links, slots := (s.ackSet n f c p q).slots } ∧
      (∀ k, (s.ackSet n f c p q).link k = (conditionNotices n f.conditions c).foldl LinkRec.receive (s.link k)) ∧
      ∀ m, m ≠ n → (s.ackSet n f c p q).slot m = s.slot m := by
  unfold State.ackSet State.raiseConditions
  refine ⟨?_, fun k => ?_, fun m hm => ?_⟩
  · rw [State.raiseAll_foldl_frame]; rfl
  · rw [State.raiseAll_foldl_link]; rfl
  · rw [State.raiseAll_foldl_frame]
    exact State.setSlot_slot_ne _ _ hm

/-- A miss changes its slot, the effective rate and notices alone. -/
theorem State.missSet_frame (s : State) (ln : LineNo) (n : SlotNo) (f : Fixture) :
    s.missSet ln n f =
        { s with links := (s.missSet ln n f).links, slots := (s.missSet ln n f).slots
                 lines := (s.missSet ln n f).lines } ∧
      LinksHear s (s.missSet ln n f) ∧
      (s.missSet ln n f).line ln = { s.line ln with effective := ((s.missSet ln n f).line ln).effective } ∧
      (∀ k, k ≠ ln → (s.missSet ln n f).line k = s.line k) ∧
      ∀ m, m ≠ n → (s.missSet ln n f).slot m = s.slot m := by
  unfold State.missSet
  dsimp only
  by_cases h3 : f.misses + 1 < 3
  · rw [if_neg (by omega)]
    exact ⟨rfl, fun k => rfl, rfl, fun k _ => rfl, fun m hm => State.setSlot_slot_ne _ _ hm⟩
  · rw [if_pos (by omega)]
    refine ⟨?_, fun k => ?_, ?_, fun k hk => ?_, fun m hm => ?_⟩
    · rw [State.recompute, State.makeMissing_frame]; rfl
    · have := State.makeMissing_hear
        (s.setSlot n { s.slot n with fixture := some { f with misses := f.misses + 1 } }) .misses n k
      simpa [State.recompute] using this
    · rw [State.recompute, State.setLine_line_self, State.makeMissing_frame]; rfl
    · rw [State.recompute, State.setLine_line_ne _ _ hk, State.makeMissing_frame]; rfl
    · simp [State.recompute, State.makeMissing_slot, hm, State.setSlot_slot_ne]

/-! ### The map by unique ID (R21) -/

theorem State.slotOfId_spec {s : State} {x : BitVec 40} {n : SlotNo} (h : s.slotOfId x = some n) :
    ∃ f, (s.slot n).fixture = some f ∧ f.uniqueId = x := by
  have := List.find?_some h
  simpa using this

theorem State.slotOfId_none {s : State} {x : BitVec 40} :
    s.slotOfId x = none ↔ ∀ n f, (s.slot n).fixture = some f → f.uniqueId ≠ x := by
  unfold State.slotOfId
  rw [List.find?_eq_none]
  constructor
  · intro h n f hf
    have := h n (List.mem_finRange n)
    simpa [hf] using this
  · intro h n _
    simpa using h n

/-- In a sound table the slot that holds an ID is found. -/
theorem State.slotOfId_eq {s : State} (t : s.TableSound) {n : SlotNo} {f : Fixture} (h : (s.slot n).fixture = some f) :
    s.slotOfId f.uniqueId = some n := by
  cases hs : s.slotOfId f.uniqueId with
  | none => exact absurd rfl (State.slotOfId_none.mp hs n f h)
  | some m =>
    obtain ⟨g, hg, hu⟩ := State.slotOfId_spec hs
    rw [t.ids_differ m n g f hg h hu]

/-! ### Short addresses (R22) -/

theorem State.mem_reservedFor {s : State} {ln : LineNo} {x : BitVec 40} {a : Nat} :
    a ∈ s.reservedFor ln x ↔
      ∃ n f, (s.slot n).fixture = some f ∧ f.line = ln ∧ f.address = a ∧ s.slotOfId x ≠ some n := by
  unfold State.reservedFor State.othersOn
  simp only [List.mem_filterMap, List.mem_filter, State.mem_slotsOf, Option.map_eq_some_iff, decide_eq_true_eq]
  constructor
  · rintro ⟨n, ⟨⟨f, hf, hl⟩, hx⟩, g, hg, rfl⟩
    rw [hf] at hg; injection hg with hg; subst hg
    exact ⟨n, f, hf, hl, rfl, hx⟩
  · rintro ⟨n, f, hf, hl, rfl, hx⟩
    exact ⟨n, ⟨⟨f, hf, hl⟩, hx⟩, f, hf, rfl⟩

/-- R22, R42: the address offered is the lowest of 1 to 32 that is not reserved for another. -/
theorem State.lowestAddress_spec {s : State} {ln : LineNo} {x : BitVec 40} {a : Nat}
    (h : s.lowestAddress ln x = some a) :
    1 ≤ a ∧ a ≤ 32 ∧ a ∉ s.reservedFor ln x := by
  have hm := List.mem_of_find?_eq_some h
  have hf := List.find?_some h
  simp only [decide_eq_true_eq] at hf
  rw [List.mem_map] at hm
  obtain ⟨b, hb, rfl⟩ := hm
  rw [List.mem_range] at hb
  exact ⟨by omega, by omega, hf⟩

theorem State.lowestAddress_none {s : State} {ln : LineNo} {x : BitVec 40} :
    s.lowestAddress ln x = none ↔ ∀ a, 1 ≤ a → a ≤ 32 → a ∈ s.reservedFor ln x := by
  unfold State.lowestAddress
  rw [List.find?_eq_none]
  constructor
  · intro h a h1 h2
    have := h a (List.mem_map.mpr ⟨a - 1, List.mem_range.mpr (by omega), by omega⟩)
    simpa using this
  · intro h a ha
    obtain ⟨b, hb, rfl⟩ := List.mem_map.mp ha
    rw [List.mem_range] at hb
    simpa using h (b + 1) (by omega) (by omega)

/-! ### Binding (R44) -/

/-- A binding changes its slot, the type table and notices alone. -/
theorem State.bindInto_frame (s : State) (n : SlotNo) (ln : LineNo) (x : BitVec 40) (a : Nat) (c : Caps) (b : Bool) :
    s.bindInto n ln x a c b =
        { s with links := (s.bindInto n ln x a c b).links, slots := (s.bindInto n ln x a c b).slots
                 types := (s.typeFor c.typeCode).1.types } ∧
      (∀ k, (s.bindInto n ln x a c b).link k =
        (conditionNotices n (((s.slot n).fixture.map (·.conditions)).getD ConditionSet.empty) c.conditions).foldl
          LinkRec.receive ((s.link k).receive (.fixtureJoined n ln a c.typeCode b))) ∧
      ∀ m, m ≠ n → (s.bindInto n ln x a c b).slot m = s.slot m := by
  have ht : (s.typeFor c.typeCode).1 = { s with types := (s.typeFor c.typeCode).1.types } := by
    unfold State.typeFor; split
    · rfl
    · split <;> rfl
  unfold State.bindInto State.raiseConditions
  dsimp only
  refine ⟨?_, fun k => ?_, fun m hm => ?_⟩
  · rw [State.raiseAll_foldl_frame, State.raiseAll_frame, ht]; rfl
  · rw [State.raiseAll_foldl_link, State.raiseAll_link, ht]; rfl
  · rw [State.raiseAll_foldl_frame, State.raiseAll_frame, ht]
    show (State.setSlot _ n _).slot m = _
    rw [State.setSlot_slot_ne _ _ hm]
    exact State.setSlot_slot_ne _ _ hm

end Sys2Proof.Machine
end

