-- ==== Sys2Proof/Laws/Requests.lean ====
section
/-! SUPPORT. Laws/Requests.lean: what reading and writing the fields of R159 give back, field by field, and what the
operations of the Link Interface do to a link. -/

namespace Sys2Proof.Machine

/-! ### Fields (R159) -/

theorem readByte_byteOf {n : Nat} (h : n < 256) (rest : List Byte) : readByte (byteOf n ++ rest) = some (n, rest) := by
  simp [readByte, byteOf, Nat.mod_eq_of_lt h]

theorem readWord_bytes16 {n : Nat} (h : FitsWord n) (rest : List Byte) :
    readWord (bytes16 n ++ rest) = some (n, rest) := by
  have : number16 (BitVec.ofNat 8 (n / 256)) (BitVec.ofNat 8 n) = n :=
    number16_bytes16 (by unfold FitsWord at h; omega)
  simp [readWord, bytes16, this]

theorem number16_of_nat (n : Nat) : number16 (BitVec.ofNat 8 (n / 256)) (BitVec.ofNat 8 n) = n % 65536 := by
  simp [number16, BitVec.toNat_ofNat]; omega

theorem readLong_bytes32 {n : Nat} (h : FitsLong n) (rest : List Byte) :
    readLong (bytes32 n ++ rest) = some (n, rest) := by
  have h1 := number16_of_nat (n / 65536)
  have h2 := number16_of_nat n
  unfold FitsLong at h
  have : n / 65536 % 65536 * 65536 + n % 65536 = n := by omega
  simp [readLong, bytes32, bytes16, h1, h2, this]

theorem groupOfCode_groupCode (g : Group) : groupOfCode (groupCode g) = some g := by cases g <;> rfl
theorem modeOfCode_code (m : Mode) : modeOfCode m.code = some m := by cases m <;> rfl
theorem optionOfCode_code (o : StepOption) : optionOfCode o.code = some o := by cases o <;> rfl
theorem rateOfCode_code (r : Rate) : rateOfCode r.code = some r := by cases r <;> rfl
theorem curveOfCode_code (c : Curve) : curveOfCode c.code = some c := by cases c <;> rfl
theorem linkOfCode_index (l : Link) : linkOfCode l.index.val = some l := by cases l <;> rfl
theorem lineOfCode_val (ln : LineNo) : lineOfCode ln.val = some ln := by simp [lineOfCode]
theorem boolOfCode_of (b : Bool) : boolOfCode (if b then 1 else 0) = some b := by cases b <;> rfl

/-- A code that reads as a group is that group's code, and so for the other coded fields. -/
theorem groupOfCode_eq_some {b : Nat} {g : Group} : groupOfCode b = some g ↔ b = groupCode g := by
  constructor
  · intro h; unfold groupOfCode at h; split at h <;> cases h <;> rfl
  · rintro rfl; exact groupOfCode_groupCode g

theorem modeOfCode_eq_some {b : Nat} {m : Mode} : modeOfCode b = some m ↔ b = m.code := by
  constructor
  · intro h; unfold modeOfCode at h; split at h <;> cases h <;> rfl
  · rintro rfl; exact modeOfCode_code m

theorem rateOfCode_eq_some {b : Nat} {r : Rate} : rateOfCode b = some r ↔ b = r.code := by
  constructor
  · intro h; unfold rateOfCode at h; split at h <;> cases h <;> rfl
  · rintro rfl; exact rateOfCode_code r

theorem curveOfCode_eq_some {b : Nat} {c : Curve} : curveOfCode b = some c ↔ b = c.code := by
  constructor
  · intro h; unfold curveOfCode at h; split at h <;> cases h <;> rfl
  · rintro rfl; exact curveOfCode_code c

/-! ### The assembler (R1) -/

/-- What the assembler holds after a run of characters. -/
theorem Assembler.foldl_take (chars : List RxChar) (a : Assembler) (h : a.stored.length = min a.counted 256) :
    (chars.foldl Assembler.take a) =
      { stored := (a.stored ++ chars.map (·.byte)).take 256
        counted := a.counted + chars.length
        broken := a.broken || chars.any (fun c => !c.stopOk) } := by
  induction chars generalizing a with
  | nil =>
    have : a.stored.take 256 = a.stored := List.take_of_length_le (by omega)
    cases a; simp_all
  | cons c rest ih =>
    rw [List.foldl_cons, ih]
    · simp only [Assembler.take, List.map_cons, List.length_cons, List.any_cons, Assembler.mk.injEq]
      refine ⟨?_, by omega, by simp [Bool.or_assoc]⟩
      split
      · rw [List.append_assoc]; rfl
      · rw [List.take_append_of_le_length (by omega), List.take_append_of_le_length (by omega)]
    · simp only [Assembler.take]
      split
      · rw [List.length_append, h]; simp; omega
      · rw [h]; omega

/-! ### The request queue (R3, R4) -/

/-- Handing on moves the oldest frame in hand, and loses none that waits. -/
theorem LinkRec.handOn_spec (r : LinkRec) :
    r.handOn = { r with requests := r.handOn.requests, inHand := r.handOn.inHand } ∧
      (r.answer = none → r.inHand = none → r.handOn.inHand = r.requests.head? ∧ r.handOn.requests = r.requests.tail) ∧
      (¬(r.answer = none ∧ r.inHand = none) → r.handOn = r) := by
  obtain ⟨_, _, _, _, _, requests, inHand, answer, _, _, _, _, _⟩ := r
  cases answer <;> cases inHand <;> cases requests <;> simp [LinkRec.handOn]

theorem LinkRec.handOn_waiting (r : LinkRec) : r.handOn.waiting = r.waiting := by
  unfold LinkRec.handOn LinkRec.waiting
  cases ha : r.answer <;> cases hi : r.inHand <;> cases hq : r.requests <;> simp_all

/-- A good frame joins the queue, or is discarded with REQUEST_OVERRUN set. -/
theorem LinkRec.enqueue_spec (r : LinkRec) (f : Frame) :
    r.enqueue f = { r with requests := (r.enqueue f).requests, requestOverrun := (r.enqueue f).requestOverrun } ∧
      (r.requests.length < 4 →
        (r.enqueue f).requests = r.requests ++ [f] ∧ (r.enqueue f).requestOverrun = r.requestOverrun) ∧
      (4 ≤ r.requests.length → (r.enqueue f).requests = r.requests ∧ (r.enqueue f).requestOverrun = true) := by
  unfold LinkRec.enqueue Config.requestQueueSize
  split
  · exact ⟨rfl, fun _ => ⟨rfl, rfl⟩, fun h => by omega⟩
  · exact ⟨rfl, fun h => by omega, fun _ => ⟨rfl, rfl⟩⟩

end Sys2Proof.Machine
end

