-- ==== Sys2Proof/Laws/Steps.lean ====
section
/-! SUPPORT. Laws/Steps.lean: what the shared operations of Steps can do, said once: the step pool, the expiry list,
starting and retiring steps. -/

namespace Sys2Proof.Machine

/-! ### The step pool (R90) -/

/-- The records taken are as many as are needed, all different, and none in use. -/
theorem freeRecords_spec (used : List Nat) (k : Nat) :
    (freeRecords used k).length = k ∧ (freeRecords used k).Nodup ∧ ∀ n ∈ freeRecords used k, n ∉ used := by
  induction k generalizing used with
  | zero => simp [freeRecords]
  | succ k ih =>
    unfold freeRecords
    dsimp only
    obtain ⟨h1, h2, h3⟩ := ih (firstFree used used.length 0 :: used)
    have hf := (firstFree_free used).1
    refine ⟨by simp [h1], List.nodup_cons.mpr ⟨fun h => h3 _ h (by simp), h2⟩, fun n hn => ?_⟩
    rcases List.mem_cons.mp hn with rfl | hn
    · exact hf
    · exact fun hu => h3 n hn (List.mem_cons_of_mem _ hu)

/-! ### The expiry list (R97) -/

theorem mem_insertEntry {e d : ExpiryEntry} {l : List ExpiryEntry} : d ∈ insertEntry e l ↔ d = e ∨ d ∈ l := by
  induction l with
  | nil => simp [insertEntry]
  | cons x rest ih =>
    unfold insertEntry
    split
    · simp only [List.mem_cons, ih]; tauto
    · simp

theorem length_insertEntry (e : ExpiryEntry) (l : List ExpiryEntry) : (insertEntry e l).length = l.length + 1 := by
  induction l with
  | nil => rfl
  | cons x rest ih => unfold insertEntry; split <;> simp [ih]

/-- An entry splits the list where it goes in: those before it expire no later, and the first behind it expires later. -/
theorem insertEntry_split (e : ExpiryEntry) (l : List ExpiryEntry) :
    insertEntry e l =
      l.takeWhile (fun d => notAfter d.time e.time) ++ e :: l.dropWhile (fun d => notAfter d.time e.time) := by
  induction l with
  | nil => rfl
  | cons x rest ih =>
    unfold insertEntry
    split
    · rename_i h; simp [h, ih]
    · rename_i h; simp [h]

/-- Within reach of the present reading, the order of expiry times is that of the time remaining. -/
theorem notAfter_iff_timeLeft {now a b : Reading} (ha : ExpiryNear now a) (hb : ExpiryNear now b) :
    notAfter a b = true ↔ timeLeft now a ≤ timeLeft now b := by
  unfold ExpiryNear timeLeft at *
  unfold notAfter elapsed
  have hd : b - a = (b - now) - (a - now) := by bv_omega
  rw [hd]
  generalize a - now = u at *
  generalize b - now = v at *
  simp only [BitVec.toInt_eq_toNat_cond] at *
  rw [BitVec.toNat_sub, decide_eq_true_iff]
  have := u.isLt; have := v.isLt
  split at ha <;> split at hb <;> simp only [*, if_true, if_false] <;> omega

/-- Into a list in its order an entry goes behind all that expire no later and before all that expire later. -/
theorem insertEntry_placed {now : Reading} {e : ExpiryEntry} {l : List ExpiryEntry}
    (hl : ∀ d ∈ l, ExpiryNear now d.time) (he : ExpiryNear now e.time)
    (ho : l.Pairwise fun d e => timeLeft now d.time ≤ timeLeft now e.time) :
    insertEntry e l =
      l.filter (fun d => decide (timeLeft now d.time ≤ timeLeft now e.time)) ++ e ::
        l.filter (fun d => decide (timeLeft now e.time < timeLeft now d.time)) := by
  induction l with
  | nil => rfl
  | cons x rest ih =>
    have hx := hl x (by simp)
    rw [List.pairwise_cons] at ho
    unfold insertEntry
    by_cases h : timeLeft now x.time ≤ timeLeft now e.time
    · rw [if_pos ((notAfter_iff_timeLeft hx he).mpr h), ih (fun d hd => hl d (by simp [hd])) ho.2]
      simp [h, Int.not_lt.mpr h]
    · rw [if_neg (mt (notAfter_iff_timeLeft hx he).mp h)]
      have h1 : rest.filter (fun d => decide (timeLeft now d.time ≤ timeLeft now e.time)) = [] := by
        rw [List.filter_eq_nil_iff]; intro d hd; have := ho.1 d hd; simp; omega
      have h2 : rest.filter (fun d => decide (timeLeft now e.time < timeLeft now d.time)) = rest := by
        rw [List.filter_eq_self]; intro d hd; have := ho.1 d hd; simp; omega
      simp [h, h1, h2, Int.not_le.mp h]

/-! ### Starting a step (R91, R97) -/

/-- A start changes its claim's running step, the expiry list and CHANGED on its slot, and nothing else. -/
theorem State.startStep_frame (s : State) (k : Nat) (n : SlotNo) (x : Step) (v : Value) (t : Reading) (d : Bool) :
    s.startStep k n x v t d =
      { (s.setChanged n).mapClaim k (fun c =>
          { c with
            running := some
              { step := x, startValue := v, startTime := t, adjusted := x.curve.adjust d x.tie
                expiry := t + BitVec.ofNat 32 (x.duration + x.dwell) } }) with
        expiryList := insertEntry { claim := k, time := t + BitVec.ofNat 32 (x.duration + x.dwell) } s.expiryList } :=
  rfl

/-- R101: checking the low mark changes the arming of its claim and notices alone. -/
theorem State.checkLowMark_frame (s : State) (k : Nat) :
    s.checkLowMark k = { s with links := (s.checkLowMark k).links, claims := (s.checkLowMark k).claims } ∧
      LinksHear s (s.checkLowMark k) := by
  unfold State.checkLowMark
  split
  · exact ⟨rfl, fun _ => rfl⟩
  · split
    · refine ⟨rfl, fun l => ?_⟩
      rw [State.raiseTo_link]; split
      · exact LinkRec.receive_frame _ _
      · rfl
    · exact ⟨rfl, fun _ => rfl⟩

/-! ### Retirement (R98, R99) -/

/-- With nothing to follow, a retiring step leaves its claim at rest at its target. -/
theorem State.retire_last {s : State} {c : Claim} {r : RunningStep} (h : c.queueAtRetirement r.step = []) :
    s.retire c r =
      { s with expiryList := s.expiryList.filter (fun e => decide (e.claim ≠ c.number)) }.mapClaim c.number
        (fun c => { c with running := none, queue := [], rest := r.step.target }) := by
  simp only [State.retire, h]

/-- The oldest pending step follows at the expiry time of the one that retires, from its target. -/
theorem State.retire_next {s : State} {c : Claim} {r : RunningStep} {x : Step} {rest : List Step}
    (h : c.queueAtRetirement r.step = x :: rest) :
    s.retire c r =
      ((({ s with expiryList := s.expiryList.filter (fun e => decide (e.claim ≠ c.number)) }.mapClaim c.number
        (fun c => { c with queue := rest })).startStep c.number c.slot x r.step.target r.expiry r.step.tie).checkLowMark
          c.number) := by
  simp only [State.retire, h]

/-- A retirement touches claims, the expiry list, CHANGED on the claim's slot, and notices. -/
theorem State.retire_frame (s : State) (c : Claim) (r : RunningStep) :
    s.retire c r =
        { s with links := (s.retire c r).links, slots := (s.retire c r).slots, claims := (s.retire c r).claims
                 expiryList := (s.retire c r).expiryList } ∧
      LinksHear s (s.retire c r) ∧
      ∀ n, ((s.retire c r).slot n).parked = (s.slot n).parked ∧ ((s.retire c r).slot n).fades = (s.slot n).fades ∧
        ((s.retire c r).slot n).fixture = (s.slot n).fixture := by
  cases h : c.queueAtRetirement r.step with
  | nil => rw [State.retire_last h]; exact ⟨rfl, fun _ => rfl, fun _ => ⟨rfl, rfl, rfl⟩⟩
  | cons x rest =>
    rw [State.retire_next h]
    have slots : ∀ (u : State) (k : Nat), (u.checkLowMark k).slots = u.slots := fun u k => by
      rw [(State.checkLowMark_frame u k).1]
    refine ⟨?_, ?_, fun n => ?_⟩
    · rw [(State.checkLowMark_frame _ c.number).1]; rfl
    · intro l
      exact (State.checkLowMark_frame (({ s with
        expiryList := s.expiryList.filter (fun e => decide (e.claim ≠ c.number)) }.mapClaim c.number
        (fun c => { c with queue := rest })).startStep c.number c.slot x r.step.target r.expiry r.step.tie) c.number).2 l
    · unfold State.slot
      rw [slots]
      show ((State.setChanged s c.slot).slot n).parked = _ ∧ ((State.setChanged s c.slot).slot n).fades = _ ∧
        ((State.setChanged s c.slot).slot n).fixture = _
      unfold State.setChanged
      rw [State.setSlot_slot]
      split
      · rename_i e; subst e; exact ⟨rfl, rfl, rfl⟩
      · exact ⟨rfl, rfl, rfl⟩

/-- When no claim runs a step of no time, the end of an event retires nothing (R97). -/
theorem State.settleSteps_of_settled {s : State} (h : s.instantEntry = none) : s.settleSteps = s := by
  simp only [State.settleSteps, Config.stepRecords, State.retireInstant, h]

theorem State.instantEntry_none {s : State}
    (h : ∀ c ∈ s.claims, ∀ r, c.running = some r → r.step.instant = false) : s.instantEntry = none := by
  unfold State.instantEntry
  rw [List.findSome?_eq_none_iff]
  intro e _
  cases hc : s.claim e.claim with
  | none => rfl
  | some c =>
    have hm := List.mem_of_find?_eq_some hc
    dsimp only
    cases hr : c.running with
    | none => rfl
    | some r => simp [h c hm r hr]

/-! ### Arming (R94, R103) -/

theorem State.arm_frame (s : State) (k : Nat) : s.arm k = { s with claims := (s.arm k).claims } := rfl

end Sys2Proof.Machine
end

