-- ==== Sys2Proof/Tests/Bench.lean ====
section
/-! SUPPORT. Tests/Bench.lean: small states for the tests and the witnesses, each a change or two to `State.reset`. -/

namespace Sys2Proof.Tests

open Sys2Proof Sys2Proof.Machine

/-- The state after a command that answers a next state. -/
def after (c : Instr) (s : State) : State :=
  match exec c s with
  | .next t => t
  | _ => s

/-- `ms` milliseconds after reset. -/
def at_ (ms : Nat) : State := { State.reset with micros := 1000 + 1000 * ms }

/-- The frame with which the tests send a request. -/
def frameOf (r : Request) : Frame := r.frame 7#8

/-- The link LIVE with the request in hand. -/
def holding (s : State) (l : Link) (r : Request) : State :=
  s.setLink l { s.link l with state := .live, lastGood := s.now, inHand := some (frameOf r), answer := none }

/-- The link LIVE. -/
def liveOn (s : State) (l : Link) : State := s.setLink l { s.link l with state := .live, lastGood := s.now }

theorem holding_inHand {s : State} {l : Link} {r : Request} (h : s.inReset = false)
    (hr : (frameOf r).request = some r) : (holding s l r).InHand l (frameOf r) r :=
  ⟨h, by simp [holding], hr⟩

/-- A claim at rest. -/
def restClaim (number : Nat) (l : Link) (n : SlotNo) (g : Group) (v : Value) : Claim :=
  { number := number, slot := n, group := g, link := l, role := .live, mode := .oneShot, rest := v, running := none
    queue := [], lowMark := 0, armed := true, taken := 0, takenOrder := number }

/-- A LINEAR step of 1000 ms and no dwell to a target. -/
def plainStep (record : Nat) (v : Value) : Step :=
  { record := record, target := v, duration := 1000, dwell := 0, curve := .linear, tie := false }

/-- The step as it runs from 0 on the show clock. -/
def running (x : Step) (start : Value) : RunningStep :=
  { step := x, startValue := start, startTime := 0, adjusted := x.curve
    expiry := BitVec.ofNat 32 (x.duration + x.dwell) }

/-- The claims put into the pool, with the entries of the expiry list. -/
def withClaims (s : State) (cs : List Claim) (es : List ExpiryEntry) : State :=
  { s with claims := cs, expiryList := es, stampCount := cs.length }

/-- A wash head bound to slot n on line 0 at an address, ONLINE or not. -/
def head (uid : BitVec 40) (address : Nat) (online : Bool) : Fixture :=
  { online := online, uniqueId := uid, line := 0, address := address, typeCode := 7, typeIndex := none, emitters := 3
    maxRate := .r500, panSpeed := 20, tiltSpeed := 20, refPan := 15000, refTilt := 32768
    refTime := { reading := 0, old := false }, lastSent := none, conditions := ConditionSet.empty, misses := 0
    pollTime := none }

/-- The fixture in a slot. -/
def bound (s : State) (n : SlotNo) (f : Fixture) : State := s.setSlot n { s.slot n with fixture := some f }

/-- An IDLE line with its operation over. -/
def idleLine : LineRec := { LineRec.reset with seq := .idle, enrol := EnrolRecord.atRest 1 }

/-- A line that is OFF. -/
def offLine : LineRec := { LineRec.reset with enabled := false, seq := .off, enrol := EnrolRecord.atRest 0 }

/-- A line with an exchange in flight. -/
def busyLine (seq : SeqState) (e : EnrolRecord) (x : Exchange) : LineRec :=
  { LineRec.reset with seq := seq, enrol := e, exchange := some x }

/-- An exchange that ends in its phase at a time. -/
def exchangeOf (frame : LineFrame) (phase : ExchangePhase) (ends : Nat) : Exchange :=
  { frame := frame, rate := .r250, phase := phase, ends := ends }

/-- The record of an operation that offers an address to an ID. -/
def offering (u : BitVec 40) (a attempt : Nat) : EnrolRecord :=
  { EnrolRecord.start .join .assigning with captured := some u, offered := some a, attempt := some attempt }

/-! ### Soundness of the small states -/

theorem pools_empty {s : State} (h1 : s.claims = []) (h2 : s.expiryList = []) : s.PoolsSound := by
  constructor <;> simp [h1, h2, State.stepRecords]

theorem pools_one {s : State} {c : Claim} (h : s.claims = [c]) (hn : c.number < 1024)
    (hq : c.queue.length ≤ 8 ∧ c.lowMark ≤ 7) (ho : c.takenOrder < s.stampCount)
    (hr : (c.running = none ∧ c.queue = [] ∧ s.expiryList = []) ∨
      ∃ r, c.running = some r ∧ r.step.instant = false ∧ s.expiryList = [{ claim := c.number, time := r.expiry }]) :
    s.PoolsSound := by
  have hl : s.stepRecords.length ≤ 9 := by
    simp only [State.stepRecords, h, List.flatMap_cons, List.flatMap_nil, List.append_nil, Claim.records]
    rcases hr with ⟨h1, h2, -⟩ | ⟨r, h1, -, -⟩ <;> simp [h1]
    · simp [h2]
    · omega
  rcases hr with ⟨h1, h2, h3⟩ | ⟨r, h1, h2, h3⟩
  · refine ⟨by simp [h], by simp [h], by simpa [h] using hn, by simp [h], by simpa [h] using hq, by simp [h],
      by simpa [h] using ho, by simp [h, h2], by omega, by simp [h3], by simp [h3], by simp [h, h1], by simp [h, h1]⟩
  · refine ⟨by simp [h], by simp [h], by simpa [h] using hn, by simp [h], by simpa [h] using hq, by simp [h],
      by simpa [h] using ho, by simp [h, h1], by omega, by simp [h3], by simp [h3, h, h1], by simp [h3, h],
      by simp [h, h1, h2]⟩

/-- A crowd of m claims at rest: claim k on slot k mod 192, of the group and link that k / 192 gives. -/
def crowdClaim (k : Nat) : Claim :=
  restClaim k (if k < 576 then .cl0 else .cl2) ⟨k % 192, Nat.mod_lt _ (by decide)⟩
    (if k / 192 % 3 = 0 then .aim else if k / 192 % 3 = 1 then .colour else .level) []

def crowd (m : Nat) : List Claim := (List.range m).map crowdClaim

theorem pools_crowd {s : State} {m : Nat} (hm : m ≤ 1024) (h1 : s.claims = crowd m) (h2 : s.expiryList = [])
    (h3 : s.stampCount = m) : s.PoolsSound := by
  have hc : ∀ c ∈ s.claims, ∃ k < m, c = crowdClaim k := fun c hc => by
    rw [h1] at hc
    obtain ⟨k, hk, rfl⟩ := List.mem_map.mp hc
    exact ⟨k, List.mem_range.mp hk, rfl⟩
  have hnum : ∀ f : Claim → Nat, (∀ k, f (crowdClaim k) = k) → s.claims.map f = List.range m := fun f hf => by
    rw [h1, crowd, List.map_map]
    exact (List.map_congr_left fun k _ => hf k).trans (List.map_id _)
  have hrec : s.stepRecords = [] := by
    unfold State.stepRecords
    rw [List.flatMap_eq_nil_iff]
    intro c h
    obtain ⟨k, -, rfl⟩ := hc c h
    rfl
  refine ⟨?_, ?_, ?_, ?_, ?_, ?_, ?_, ?_, by simp [hrec], by simp [h2], by simp [h2], ?_, ?_⟩
  · rw [h1]; simpa [crowd] using hm
  · rw [hnum _ fun _ => rfl]; exact List.nodup_range
  · intro c h; obtain ⟨k, hk, rfl⟩ := hc c h; exact lt_of_lt_of_le hk hm
  · intro c h d h'
    obtain ⟨k, hk, rfl⟩ := hc c h
    obtain ⟨j, hj, rfl⟩ := hc d h'
    intro e1 e2 e3
    have e2 : k % 192 = j % 192 := congrArg Fin.val e2
    simp only [crowdClaim, restClaim] at e1 e3
    have : k = j := by
      split at e1 <;> split at e1 <;> simp at e1 <;> (split at e3 <;> [skip; split at e3] <;>
        (split at e3 <;> [skip; split at e3]) <;> simp at e3 <;> omega)
    rw [this]
  · intro c h; obtain ⟨k, -, rfl⟩ := hc c h; exact ⟨by simp [crowdClaim, restClaim], by simp [crowdClaim, restClaim]⟩
  · rw [hnum _ fun _ => rfl]; exact List.nodup_range
  · intro c h; obtain ⟨k, hk, rfl⟩ := hc c h; rw [h3]; exact hk
  · intro c h _; obtain ⟨k, -, rfl⟩ := hc c h; rfl
  · intro c h; obtain ⟨k, -, rfl⟩ := hc c h; simp [crowdClaim, restClaim]
  · intro c h; obtain ⟨k, -, rfl⟩ := hc c h; simp [crowdClaim, restClaim]

theorem table_free {s : State} (h : ∀ n, (s.slot n).fixture = none) : s.TableSound ∧ s.OffersSound :=
  ⟨⟨fun n f hf => by simp [h n] at hf, fun n m f g hf => by simp [h n] at hf, fun n m f g hf => by simp [h n] at hf⟩,
    fun ln x a _ _ n f hf => by simp [h n] at hf⟩

theorem reset_slot (n : SlotNo) : State.reset.slot n = Slot.reset := by simp [State.reset, State.slot]

theorem reset_line (ln : LineNo) : State.reset.line ln = LineRec.reset := by simp [State.reset, State.line]

theorem resetLine_sound : LineRec.reset.Sound := by
  constructor <;> simp [LineRec.reset]

/-- Every line as after reset but for line 0, which is sound. -/
theorem lines_one {s : State} {r : LineRec} (hs : s.lines = (State.reset.setLine 0 r).lines) (hr : r.Sound) :
    s.LinesSound := by
  intro _ ln
  have : s.line ln = (State.reset.setLine 0 r).line ln := by unfold State.line; rw [hs]
  rw [this, State.setLine_line]
  split
  · exact hr
  · rw [reset_line]; exact resetLine_sound

theorem idleLine_sound : idleLine.Sound := by
  constructor <;> simp [idleLine, LineRec.reset, EnrolRecord.atRest]

theorem offLine_sound : offLine.Sound := by
  constructor <;> simp [offLine, LineRec.reset, EnrolRecord.atRest]

end Sys2Proof.Tests
end

