-- ==== Sys2Proof/WellFormed.lean ====
section
/-! DEFINITION. WellFormed.lean: what a command's operands must meet beyond their types for the outside to be able to
send it. -/

namespace Sys2Proof

/-- A frame begins at a character (R1), and a reply that ends has at least one character and at most the number its
kind requires: 8 for an ACK, 16 for a CAPS (R139, R160). A good CAPS arrives complete (R43). -/
def Instr.wellFormed : Instr → Bool
  | .frameArrival _ chars => decide (1 ≤ chars.length)
  | .replyEnd _ reply => decide (1 ≤ reply.length) && decide (reply.length ≤ 8)
  | .capsReceived _ reply => decide (reply.length = 16)
  | .capsFailure _ reply => decide (1 ≤ reply.length) && decide (reply.length ≤ 16)
  | _ => true

end Sys2Proof
end

