-- ==== Sys2Proof/Tests/Slice0.lean ====
section
/-! SUPPORT. Tests/Slice0.lean: the smoke tests of WellFormed, the worked figures of the chapters, and at most two
one-step tests for each command. Each test names the section its figures come from; the expected results are the
manual's, or worked by hand from the rule named. -/

namespace Sys2Proof.Tests

open Sys2Proof Sys2Proof.Machine

/- Each test is a kernel evaluation; one after another they need few threads. -/
set_option Elab.async false

/-! ### WellFormed: an ill-formed term for each check -/

theorem test_wellFormed_frame_needs_a_character : (Instr.frameArrival .cl0 []).wellFormed = false := by decide
theorem test_wellFormed_reply_needs_a_character : (Instr.replyEnd 0 []).wellFormed = false := by decide
theorem test_wellFormed_reply_of_nine :
    (Instr.replyEnd 0 (List.replicate 9 { byte := 0, stopOk := true })).wellFormed = false := by decide
theorem test_wellFormed_caps_of_fifteen :
    (Instr.capsReceived 0 (List.replicate 15 { byte := 0, stopOk := true })).wellFormed = false := by decide
theorem test_wellFormed_caps_failure_needs_a_character : (Instr.capsFailure 0 []).wellFormed = false := by decide
theorem test_wellFormed_caps_failure_of_seventeen :
    (Instr.capsFailure 0 (List.replicate 17 { byte := 0, stopOk := true })).wellFormed = false := by decide
theorem test_wellFormed_caps_of_sixteen :
    (Instr.capsReceived 0 (List.replicate 16 { byte := 0, stopOk := true })).wellFormed = true := by decide

/-! ### Checks and bytes (chapter 12) -/

/-- The characters "123456789" of sections 12.1 and 12.2. -/
def nineDigits : List Byte := [0x31, 0x32, 0x33, 0x34, 0x35, 0x36, 0x37, 0x38, 0x39]

theorem test_crc16_check : crc16 nineDigits = 0x29B1#16 := by decide +kernel
theorem test_crc8_check : crc8 nineDigits = 0xF4#8 := by decide +kernel

/-- A KEEP with tag 5, written out: length 2, tag, kind 0x18, CRC-16; its check is worked with `crc16`. -/
theorem test_keep_frame : controlFrame 5#8 0x18#8 [] = [2, 5, 0x18] ++ bytes16 (crc16 [2, 5, 0x18]).toNat := by
  decide +kernel

/-- Section 12.1: a SEIZE of the slots 3 and 7, group COLOUR: form 1, two slots, group 1. -/
theorem test_seize_frame :
    Frame.request { tag := 0, kind := 0x01, payload := [1, 2, 3, 7, 1] } = some (.seize (.list [3, 7]) .colour) := by
  decide +kernel

/-- Section 12.1: a STEP of slots 0 to 3, LEVEL, REPLACE, with a mode and no low mark: one step to 60000 over 500 ms,
dwell 250, EASE_IN_OUT, tied. -/
theorem test_step_frame :
    Frame.request
        { tag := 0, kind := 0x03
          payload := [0, 0, 4, 2, 1, 1, 1, 1, 0xEA, 0x60, 0, 0, 0x01, 0xF4, 0, 0, 0, 0xFA, 0x83] } =
      some (.step (.range 0 4) .level .replace (some .loop) none
        [{ target := [60000], duration := 500, dwell := 250, curve := .easeInOut, tie := true }]) := by
  decide +kernel

/-- Section 12.1: a SET_LINE of line 2, on, 500 kbit/s, window 300, refresh 1000, join 2000. -/
theorem test_setLine_frame :
    Frame.request { tag := 0, kind := 0x10, payload := [2, 1, 1, 0x01, 0x2C, 0x03, 0xE8, 0x07, 0xD0] } =
      some (.setLine { line := 2, enabled := true, rate := .r500, replyWindow := 300, refreshPeriod := 1000
                       joinPeriod := 2000 }) := by
  decide +kernel

/-- R159: a group code of 3, a low mark of 8 and a byte too many each make a malformed request. -/
theorem test_malformed_requests :
    Frame.request { tag := 0, kind := 0x01, payload := [0, 0, 1, 3] } = none ∧
      Frame.request { tag := 0, kind := 0x05, payload := [0, 0, 1, 0, 0, 8] } = none ∧
      Frame.request { tag := 0, kind := 0x18, payload := [0] } = none := by
  decide +kernel

/-- Section 12.2: a SET to address 9 with three emitters has 13 characters, a POLL 3, an ASSIGN 9. -/
theorem test_line_frames :
    (LineFrame.set 0 9 1 2 [3, 4, 5]).bytes.length = 13 ∧ (LineFrame.poll 0 9).bytes.take 2 = [9, 2] ∧
      (LineFrame.assign 0x0102030405 7).bytes.take 8 = [63, 5, 1, 2, 3, 4, 5, 7] := by
  decide +kernel

/-! ### Profile arithmetic (chapter 7) -/

/-- The table of section 7.3 at the quarter points. -/
theorem test_curve_table :
    [Curve.linear, .easeIn, .easeOut, .easeInOut].map (fun c => [0, 16384, 32768, 49152, 65535].map (shape c)) =
      [[0, 16384, 32768, 49152, 65535], [0, 4096, 16384, 36864, 65534], [0, 28672, 49152, 61440, 65535],
       [0, 10240, 32768, 55296, 65535]] := by
  decide +kernel

/-- Section 7.4: the step from 10000 to 50000 over 2000 ms, started at 120,000, at 120,500. -/
def sixCurves (c : Curve) : RunningStep :=
  { step := { record := 0, target := [50000], duration := 2000, dwell := 0, curve := c, tie := false }
    startValue := [10000], startTime := 120000, adjusted := c, expiry := 122000 }

theorem test_six_curves :
    [Curve.linear, .easeIn, .easeOut, .easeInOut, .snap, .snapEnd].map (fun c => (sixCurves c).value 120500) =
      [[20000], [12500], [27500], [16250], [50000], [10000]] := by
  decide +kernel

/-- Section 7.5: a step across the wrap of the clock. -/
def wrapStep : RunningStep :=
  { step := { record := 0, target := [40000], duration := 4000, dwell := 0, curve := .linear, tie := false }
    startValue := [0], startTime := 4294966296, adjusted := .linear, expiry := 3000 }

theorem test_across_the_wrap :
    wrapStep.value 4294966296 = [0] ∧ wrapStep.value 4294967295 = [9990] ∧ wrapStep.value 1000 = [20000] ∧
      wrapStep.value 3000 = [40000] := by
  decide +kernel

/-- Section 7.7: the owner's value at 50,400, and the crossfade toward it. -/
def movingColour : RunningStep :=
  { step := { record := 0, target := [20000, 60000, 0], duration := 1000, dwell := 0, curve := .linear, tie := false }
    startValue := [20000, 20000, 20000], startTime := 49800, adjusted := .linear, expiry := 50800 }

theorem test_moving_colour :
    movingColour.value 50400 = [20000, 44000, 8000] ∧
      Crossfade.value { fromValue := [60000, 10000, 0], start := { reading := 50000, old := false }, duration := 1500 }
        (movingColour.value 50400) 50400 = [49333, 19067, 2133] := by
  decide +kernel

/-- R112: from 100 to 101 and from 101 to 100 at half time both show 101. -/
theorem test_halves_round_up : interpolate 100 101 32768 = 101 ∧ interpolate 101 100 32768 = 101 := by decide +kernel

/-- Section 6.9: B's own tie drops its ease-out, and B's tie drops C's ease-in. -/
theorem test_ties :
    Curve.easeInOut.adjust false true = .easeIn ∧ Curve.easeInOut.adjust true false = .easeOut ∧
      Curve.linear.adjust true true = .linear := by
  decide

/-! ### Aim (chapter 8) and colour (chapter 9) -/

/-- Section 8.6: one frame behind a fast step. -/
theorem test_behind_a_fast_step :
    limitMove 16250 15000 400 = 15400 ∧ isLimited 16250 15000 400 = true ∧ limitMove 14900 15000 400 = 14900 := by
  decide

/-- Section 8.8: after the hold the allowed time is at most 1000 ms: 18,000. -/
theorem test_after_the_hold :
    allowedTime { reading := 600000, old := false } 605001 = 1000 ∧ limitMove 40000 10000 (8 * 1000) = 18000 := by
  decide

/-- Section 9.7: an in-gamut colour at three-quarter level. -/
theorem test_in_gamut :
    resolveColour #v[⟨16384, 0, 0⟩, ⟨0, 16384, 0⟩, ⟨0, 0, 16384⟩, ⟨4096, 4096, 4096⟩, ⟨0, 0, 0⟩] 4 [65535, 32768, 0]
      49152 = ([49152, 24576, 0, 18432], false) := by
  decide +kernel

/-- Section 9.8: out of gamut, with a negative sum. -/
theorem test_out_of_gamut :
    resolveColour #v[⟨20480, -2048, -2048⟩, ⟨-1024, 18432, -1024⟩, ⟨-2048, -2048, 20480⟩, ⟨0, 0, 0⟩, ⟨0, 0, 0⟩] 3
      [60000, 30000, 5000] 40000 = ([40000, 16814, 0], true) := by
  decide +kernel

/-- Section 9.9: the default matrix on five emitters. -/
theorem test_default_matrix :
    resolveColour defaultMatrix 5 [40000, 20000, 10000] 65535 = ([40000, 20000, 10000, 0, 0], false) := by
  decide +kernel

/-! ### Power, reset and the safety input -/

/-- R161: the supply rises: the part is in reset. -/
theorem test_power_on_reset : (after (.powerOnReset .supplyRise) State.reset).inReset = true := by decide +kernel

/-- R161: a low pulse shorter than 1 ms is ignored. -/
theorem test_short_reset_pulse :
    (after (.powerOnReset .resetNLow) { State.reset with resetNHigh := false, resetNChangedAt := 1 }).inReset = false := by
  decide +kernel

/-- R153, R161: with SAFE_N low, the part leaves reset in HOLDING. -/
theorem test_leave_reset :
    (after .leaveReset { State.reset with inReset := true, safeNHigh := false }).safety = .holding ∧
      (after .leaveReset { State.reset with inReset := true, safeNHigh := false }).inReset = false := by
  decide +kernel

theorem test_reset_n_change : (after (.resetNChange false) State.reset).resetNHigh = false := by decide +kernel
theorem test_safe_n_change :
    (after (.safeNChange false) (at_ 5)).safeNHigh = false ∧ (after (.safeNChange false) (at_ 5)).safeNChangedAt = 6000 := by
  decide +kernel

/-- Section 11.8: SAFE_N low for 10 ms is an assertion, and for 6 ms is not. -/
theorem test_safety_assertion :
    (after .safetyAssertion { at_ 20 with safeNHigh := false, safeNChangedAt := 11000 }).safety = .holding ∧
      (after .safetyAssertion { at_ 20 with safeNHigh := false, safeNChangedAt := 15000 }).safety = .clear := by
  decide +kernel

theorem test_safety_release :
    (after .safetyRelease { at_ 20 with safeAsserted := true, safety := .holding, safeNChangedAt := 11000 }).safety =
      .latched := by
  decide +kernel

/-- R106: a stamp becomes old at 2^31 ms and not before. -/
theorem test_stamp_becomes_old :
    ((after (.stampBecomesOld (.follower 3)) (bound (at_ 2147483648) 3 (head 1 1 true))).slot 3).fixture.map
        (·.refTime.old) = some true ∧
      ((after (.stampBecomesOld (.follower 3)) (bound (at_ 2147483647) 3 (head 1 1 true))).slot 3).fixture.map
        (·.refTime.old) = some false := by
  decide +kernel

/-! ### The Link Interface -/

/-- R2, R11: a good KEEP makes its link LIVE and is in hand. -/
theorem test_frame_arrival :
    (((after (.frameArrival .cl2 (asCharacters (controlFrame 9#8 0x18#8 []))) State.reset).link .cl2).state = .live) ∧
      (((after (.frameArrival .cl2 (asCharacters (controlFrame 9#8 0x18#8 []))) State.reset).link .cl2).inHand =
        some { tag := 9, kind := 0x18, payload := [] }) := by
  decide +kernel

/-- Section 1.9: F arrives while B, C, D and E wait: it is discarded, and REQUEST_OVERRUN is set. -/
theorem test_frame_overrun :
    let waiting : Frame := { tag := 1, kind := 0x18, payload := [] }
    let s := State.reset.setLink .cl2 { LinkRec.reset 2000 with
      state := .live, inHand := some waiting, requests := [waiting, waiting, waiting, waiting] }
    ((after (.frameArrival .cl2 (asCharacters (controlFrame 9#8 0x18#8 []))) s).link .cl2).requestOverrun = true := by
  decide +kernel

/-- Section 1.10: CL2 falls silent 500 ms after its last good frame, and CL0's claim beneath owns the group with a
crossfade of 2000 ms. -/
theorem test_silence_timeout :
    let s := withClaims (liveOn State.reset .cl2)
      [restClaim 0 .cl0 40 .aim [1, 2], { restClaim 1 .cl2 40 .aim [30000, 20000] with takenOrder := 1 }] []
    let t := after (.silenceTimeout .cl2) { s with micros := 501000 }
    (t.link .cl2).state = .silent ∧ t.ownerNumber 40 .aim = some 0 ∧
      (t.fade 40 .aim).map (fun x => (x.fromValue, x.duration)) = some ([30000, 20000], 2000) := by
  decide +kernel

theorem test_silence_timeout_not_yet :
    ((after (.silenceTimeout .cl2) { liveOn State.reset .cl2 with micros := 500999 }).link .cl2).state = .live := by
  decide +kernel

/-- R10: the answer goes out before the notice, 10 µs for each byte. -/
theorem test_transmit_start :
    let answer : Answer := { tag := 1, kind := 0x98, status := .ok
                             flags := { requestOverrun := false, noticeOverflow := false, safetyActive := false }
                             data := .none }
    let s := State.reset.setLink .cl1 { LinkRec.reset 0 with
      state := .live, answer := some answer, notices := [.handoverAsked .cl0] }
    (((after (.transmitStart .cl1) s).link .cl1).sending.map (fun x => (x.isAnswer, x.ends))) = some (true, 1070) := by
  decide +kernel

/-- R4, R10: the answer's last byte has gone; the next request is handed on, and the line is idle for 50 µs. -/
theorem test_transmit_done :
    let waiting : Frame := { tag := 1, kind := 0x18, payload := [] }
    let s := State.reset.setLink .cl1 { LinkRec.reset 0 with
      state := .live, requests := [waiting], answer := none
      sending := some { isAnswer := true, bytes := [], ends := 1000 } }
    let t := after (.transmitDone .cl1) s
    (t.link .cl1).inHand = some waiting ∧ (t.link .cl1).sending = none ∧ (t.link .cl1).txReady = 1050 := by
  decide +kernel

theorem test_unknown_kind :
    let s := State.reset.setLink .cl1 { LinkRec.reset 0 with
      state := .live, inHand := some { tag := 3, kind := 0x06, payload := [] } }
    ((after (.unknownKind .cl1) s).link .cl1).answer.map (fun a => (a.tag, a.kind, a.status)) =
      some (3, 0x86, .badRequest) := by
  decide +kernel

/-- R12: a silence limit of 50 is raised to 100, and the answer is CLAMPED. -/
theorem test_set_link :
    let t := after (.setLink .cl0) (holding State.reset .cl0 (.setLink .cl3 50 600001))
    (t.link .cl3).silenceLimit = 100 ∧ (t.link .cl3).lossFade = 600000 ∧
      (t.link .cl0).answer.map (·.status) = some .clamped := by
  decide +kernel

/-- Section 1.10: a KEEP of CL2 is answered with its loss fade of 2000 and a notice count of 0. -/
theorem test_keep :
    ((after (.keep .cl2) (holding State.reset .cl2 .keep)).link .cl2).answer.map (fun a => (a.status, a.data)) =
      some (.ok, .keep .cl2 500 2000 0) := by
  decide +kernel

/-! ### Claims and steps -/

/-- R62: CL3 seizes slot 5's COLOUR: a claim of lowest number, at rest at the parked white. -/
theorem test_seize :
    let t := after (.seize .cl3) (holding State.reset .cl3 (.seize (.range 5 1) .colour))
    t.claims.map (fun c => (c.number, c.rest, c.role)) = [(0, [65535, 65535, 65535], .live)] ∧
      (t.slot 5).flags.changed = true := by
  decide +kernel

/-- R58, R62: the STANDBY console's claim is SHADOW and owns nothing. -/
theorem test_seize_standby :
    let t := after (.seize .cl1) (holding State.reset .cl1 (.seize (.range 5 1) .colour))
    t.claims.map (·.role) = [.shadow] ∧ t.ownerNumber 5 .colour = none := by
  decide +kernel

/-- R66: the last claim goes: the group is parked at what it showed. -/
theorem test_release :
    let s := withClaims State.reset [restClaim 4 .cl2 7 .level [12345]] []
    let t := after (.release .cl2) (holding s .cl2 (.release (.range 7 1) .level 500))
    t.claims = [] ∧ (t.slot 7).parked.level = [12345] ∧ (t.slot 7).fades.level = none := by
  decide +kernel

/-- Section 6.9, at 300,000: A runs from 0 with its ease kept and expires at 300,750; B, C and D wait. -/
def chase : List StepFields :=
  [{ target := [60000], duration := 500, dwell := 250, curve := .easeInOut, tie := false },
   { target := [10000], duration := 500, dwell := 250, curve := .easeInOut, tie := true },
   { target := [40000], duration := 500, dwell := 250, curve := .linear, tie := false },
   { target := [0], duration := 1000, dwell := 0, curve := .easeOut, tie := false }]

def chased : State :=
  after (.stepAppend .cl3)
    (holding (at_ 300000) .cl3 (.step (.list [120]) .level .append (some .oneShot) (some 1) chase))

theorem test_step_append :
    chased.claims.map (fun c => c.running.map (fun r => (r.startValue, r.startTime, r.adjusted, r.expiry))) =
        [some ([0], 300000, .easeInOut, 300750)] ∧
      chased.claims.map (fun c => (c.queue.map (·.target), c.armed)) = [([[10000], [40000], [0]], true)] := by
  decide +kernel

/-- Section 6.9, at 300,750: B starts from 60000, its ease-out dropped by its own tie. -/
theorem test_step_expiry :
    let t := after .stepExpiry { chased with micros := 1000 + 300750000 }
    t.claims.map (fun c => (c.running.map (fun r => (r.startValue, r.startTime, r.adjusted, r.expiry)), c.queue.length)) =
      [(some ([60000], 300750, .easeIn, 301500), 2)] ∧ t.stepRecords.length = 3 := by
  decide +kernel

/-- Section 6.9, at 301,500: with one step left behind it, C starts and QUEUE_LOW is raised. -/
theorem test_step_expiry_low :
    let s := after .stepExpiry { chased with micros := 1000 + 300750000 }
    let t := after .stepExpiry { s with micros := 1000 + 301500000 }
    t.claims.map (fun c => (c.running.map (·.adjusted), c.queue.length, c.armed)) = [(some .linear, 1, false)] ∧
      (t.link .cl3).notices = [.queueLow 120 .level 1] := by
  decide +kernel

/-- R95: a REPLACE on a running claim starts from the claim's own value: halfway, 32768 of 65535. -/
theorem test_step_replace :
    let c := { restClaim 0 .cl0 1 .level [0] with running := some (running (plainStep 0 [65535]) [0]) }
    let s := withClaims (at_ 500) [c] [{ claim := 0, time := 1000 }]
    let t := after (.stepReplace .cl0) (holding s .cl0 (.step (.list [1]) .level .replace none none
      [{ target := [0], duration := 100, dwell := 0, curve := .linear, tie := false }]))
    t.claims.map (fun c => c.running.map (·.startValue)) = [some [32768]] ∧
      t.expiryList = [{ claim := 0, time := 600 }] := by
  decide +kernel

/-- R102: a HALT freezes the claim at its own value, with no step in use. -/
theorem test_halt :
    let c := { restClaim 0 .cl0 1 .level [0] with running := some (running (plainStep 0 [65535]) [0]) }
    let s := withClaims (at_ 500) [c] [{ claim := 0, time := 1000 }]
    let t := after (.halt .cl0) (holding s .cl0 (.halt (.list [1]) .level))
    t.claims.map (fun c => (c.running, c.rest)) = [(none, [32768])] ∧ t.expiryList = [] := by
  decide +kernel

theorem test_set_mode :
    let s := withClaims State.reset [restClaim 0 .cl0 1 .level [0]] []
    let t := after (.setMode .cl0) (holding s .cl0 (.setMode (.list [1]) .level .loop 3))
    t.claims.map (fun c => (c.mode, c.lowMark)) = [(.loop, 3)] := by
  decide +kernel

/-- R75: the clean slate parks what the group showed. -/
theorem test_rig_clear :
    let s := withClaims State.reset [restClaim 0 .cl0 1 .level [500]] []
    let t := after (.rigClear .cl0) (holding s .cl0 .rigClear)
    t.claims = [] ∧ (t.slot 1).parked.level = [500] ∧ (t.slot 1).flags.changed = false := by
  decide +kernel

/-! ### The console pair and the hold -/

theorem test_handover_ask :
    let s := liveOn State.reset .cl0
    let t := after (.handoverAsk .cl1) (holding s .cl1 .handoverAsk)
    t.pair.askPending = true ∧ (t.link .cl0).notices = [.handoverAsked .cl1] := by
  decide +kernel

theorem test_handover_decline :
    let s := { liveOn State.reset .cl1 with pair := { State.reset.pair with askPending := true } }
    let t := after (.handoverDecline .cl0) (holding s .cl0 .handoverDecline)
    t.pair.askPending = false ∧ (t.link .cl1).notices = [.handoverDeclined .cl0] := by
  decide +kernel

/-- R84, R85: the roles are exchanged; with the STANDBY link not LIVE the give is not permitted. -/
theorem test_handover_give :
    (after (.handoverGive .cl0) (holding (liveOn State.reset .cl1) .cl0 (.handoverGive 100))).pair.active = .b ∧
      ((after (.handoverGive .cl0) (holding State.reset .cl0 (.handoverGive 100))).link .cl0).answer.map (·.status) =
        some .notPermitted := by
  decide +kernel

/-- R79: the STANDBY console's claims become LIVE. -/
theorem test_override_on :
    let s := withClaims State.reset [{ restClaim 0 .cl1 1 .level [500] with role := .shadow }] []
    let t := after (.overrideOn .cl1) (holding s .cl1 (.override true 250))
    t.claims.map (·.role) = [.live] ∧ (t.fade 1 .level).map (·.duration) = some 250 := by
  decide +kernel

theorem test_override_off :
    let s := { withClaims State.reset [restClaim 0 .cl1 1 .level [500]] [] with
               pair := { State.reset.pair with override := true } }
    let t := after (.overrideOff .cl1) (holding s .cl1 (.override false 250))
    t.claims.map (·.role) = [.shadow] ∧ t.pair.override = false := by
  decide +kernel

theorem test_set_pair :
    (after (.setPair .cl0) (holding State.reset .cl0 (.setPair 600001))).pair.failoverFade = 600000 := by
  decide +kernel

/-- Section 11.8: the hold is cleared with a fade of 2000; 1 ms later the level shows 23, and 1 s later 24000. -/
theorem test_safe_clear :
    let s := { withClaims (bound (at_ 812000) 5 (head 1 1 true)) [restClaim 0 .cl0 5 .level [48000]] [] with
               safety := .latched }
    let t := after (.safeClear .cl0) (holding s .cl0 (.safeClear 2000))
    t.safety = .clear ∧ t.present 5 .level = [0] ∧
      { t with micros := 1000 + 812001000 }.present 5 .level = [23] ∧
      { t with micros := 1000 + 813000000 }.present 5 .level = [24000] := by
  decide +kernel

theorem test_safe_clear_in_the_hold :
    ((after (.safeClear .cl0) (holding { State.reset with safety := .holding } .cl0 (.safeClear 0))).link .cl0).answer.map
      (fun a => (a.status, a.flags.safetyActive)) = some (.safetyHold, true) := by
  decide +kernel

/-! ### Setup -/

/-- R147: disabling an ENROLLING line with no exchange in flight abandons its operation. -/
theorem test_set_line :
    let t := after (.setLine .cl0) (holding State.reset .cl0 (.setLine
      { line := 2, enabled := false, rate := .r500, replyWindow := 99, refreshPeriod := 1000, joinPeriod := 2000 }))
    (t.line 2).seq = .off ∧ (t.line 2).replyWindow = 100 ∧ (t.link .cl0).answer.map (·.status) = some .clamped ∧
      (t.link .cl0).notices = [.enrolDone 2 0 .abandoned] := by
  decide +kernel

theorem test_enrol_line_full :
    ((after (.enrolLineFull .cl0) (holding (State.reset.setLine 0 idleLine) .cl0 (.enrolLine 0 true))).line 0).enrol =
      EnrolRecord.start .full .dropping := by
  decide +kernel

/-- R38: an operation is running on the line: BUSY. -/
theorem test_enrol_line_join :
    ((after (.enrolLineJoin .cl0) (holding State.reset .cl0 (.enrolLine 0 false))).link .cl0).answer.map (·.status) =
        some .busy ∧
      ((after (.enrolLineJoin .cl0) (holding (State.reset.setLine 0 idleLine) .cl0 (.enrolLine 0 false))).line
        0).enrol.subState = some .calling := by
  decide +kernel

/-- R29, R30: the entry is written, and the slot of its code takes its number. -/
theorem test_set_type :
    let t := after (.setType .cl0) (holding (bound State.reset 9 (head 1 1 true)) .cl0 (.setType 7 defaultMatrix))
    (t.typeEntry 0).map (·.code) = some 7 ∧ (t.slot 9).fixture.map (·.typeIndex) = some (some 0) ∧
      (t.link .cl0).answer.map (·.data) = some (.entry 0) := by
  decide +kernel

theorem test_forget :
    ((after (.forget .cl0) (holding (bound State.reset 9 (head 1 1 false)) .cl0 (.forget (.range 9 1)))).slot 9).state =
        .free ∧
      ((after (.forget .cl0) (holding (bound State.reset 9 (head 1 1 true)) .cl0 (.forget (.range 9 1)))).slot 9).state =
        .online := by
  decide +kernel

/-! ### Queries -/

theorem test_read_slot :
    ((after (.readSlot .cl1) (holding State.reset .cl1 (.readSlot 191))).link .cl1).answer.map (·.status) = some .ok ∧
      ((after (.readSlot .cl1) (holding State.reset .cl1 (.readSlot 192))).link .cl1).answer.map (·.status) =
        some .badSlot := by
  decide +kernel

/-- R57, R74: the feed of CL2 stands before the console. -/
theorem test_read_claims :
    let s := withClaims State.reset [restClaim 0 .cl0 3 .level [1], restClaim 1 .cl2 3 .level [2]] []
    (match ((after (.readClaims .cl1) (holding s .cl1 (.readClaims 3 .level))).link .cl1).answer.map (·.data) with
      | some (.claims _ views _) => views.map (fun v => (v.claim.number, v.standing))
      | _ => []) = [(1, .owner), (0, .held)] := by
  decide +kernel

/-- R149: WRONG_ADDRESS is reported, and is then gone. -/
theorem test_read_line :
    let s := State.reset.setLine 0 { LineRec.reset with conditions := LineRec.reset.conditions.put .wrongAddress true }
    let t := after (.readLine .cl0) (holding s .cl0 (.readLine 0))
    (t.line 0).conditions.wrongAddress = false ∧
      (match (t.link .cl0).answer.map (·.data) with
        | some (.line r _ _) => r.conditions.wrongAddress
        | _ => false) = true := by
  decide +kernel

theorem test_read_type :
    ((after (.readType .cl0) (holding State.reset .cl0 (.readType 15))).link .cl0).answer.map (·.data) =
      some (.type false 0 defaultMatrix 0) := by
  decide +kernel

theorem test_read_part :
    ((after (.readPart .cl0) (holding (at_ 77) .cl0 .readPart)).link .cl0).answer.map (·.data) =
      some (.part 77 .clear State.reset.pair 1024 4096) := by
  decide +kernel

/-! ### The Line Sequencers -/

/-- R143, R144: the slot never sent to is picked, and its SET of 13 characters goes out at the effective rate. -/
theorem test_scheduler_pick :
    let s := (bound State.reset 3 (head 1 9 true)).setLine 0 { idleLine with effective := .r500 }
    let t := after (.schedulerPick 0) s
    (t.line 0).seq = .sending ∧
      (t.line 0).exchange.map (fun x => (x.frame.slotAddress, x.rate, x.ends)) = some (some 9, .r500, 1000 + 13 * 20) := by
  decide +kernel

/-- R47: with no slot in any class, the joining operation begins. -/
theorem test_scheduler_join :
    ((after (.schedulerPick 0) (State.reset.setLine 0 idleLine)).line 0).enrol.operation = .joining := by
  decide +kernel

/-- Section 1.6, R40: after reset every line sends a DROP to address 0, 3 characters of 40 µs. -/
theorem test_enrol_frame_start :
    ((after (.enrolFrameStart 0) State.reset).line 0).exchange =
      some { frame := .drop 0, rate := .r250, phase := .frame, ends := 1120 } := by
  decide +kernel

theorem test_drop_done :
    let s := State.reset.setLine 0
      (busyLine .enrolling (EnrolRecord.start .full .dropping) (exchangeOf (.drop 0) .frame 1000))
    let t := after (.dropDone 0) (bound s 3 (head 1 9 true))
    (t.slot 3).state = .missing ∧ (t.line 0).enrol.subState = some .calling ∧ (t.line 0).restedAt = 1080 := by
  decide +kernel

/-- R41: the arbitration window is 40 bit times at 250 kbit/s, 160 µs. -/
theorem test_call_done :
    let s := State.reset.setLine 0 (busyLine .enrolling (EnrolRecord.start .full .calling) (exchangeOf .call .frame 1000))
    ((after (.callDone 0) s).line 0).exchange.map (fun x => (x.phase, x.ends)) = some (.arbitration, 1160) := by
  decide +kernel

/-- R42: address 1 is held by another ID; 2 is offered. -/
theorem test_arbitration_end :
    let s := bound (State.reset.setLine 0
      (busyLine .enrolling (EnrolRecord.start .full .arbitrating) (exchangeOf .call .arbitration 1000))) 3 (head 8 1 true)
    ((after (.arbitrationEnd 0 5) s).line 0).enrol.offered = some 2 ∧
      ((after (.arbitrationEnd 0 (BitVec.allOnes 40)) s).line 0).seq = .idle := by
  decide +kernel

/-- R43: the window is the setting and 16 characters of 40 µs. -/
theorem test_assign_done :
    let s := State.reset.setLine 0 (busyLine .enrolling (offering 5 1 1) (exchangeOf (.assign 5 1) .frame 1000))
    ((after (.assignDone 0) s).line 0).exchange.map (fun x => (x.phase, x.ends)) = some (.window, 1000 + 300 + 640) := by
  decide +kernel

/-- A CAPS from an address: conditions 0, pan 1, tilt 2, type 7, 3 emitters, rate code 1, speeds 20 and 30. -/
def capsFrom (address : Nat) : List RxChar :=
  asCharacters (lineBytes address 6#8 [0, 0, 1, 0, 2, 0, 7, 3, 1, 0, 20, 0, 30])

/-- R44: the ID is bound into the lowest FREE slot, and the type takes the lowest unused entry. -/
theorem test_caps_received :
    let s := State.reset.setLine 0 (busyLine .enrolling (offering 5 1 1) (exchangeOf (.assign 5 1) .window 2000))
    let t := after (.capsReceived 0 (capsFrom 1)) s
    (t.slot 0).fixture.map (fun f => (f.uniqueId, f.address, f.typeIndex, f.maxRate, f.tiltSpeed)) =
        some (5, 1, some 0, .r500, 30) ∧
      (t.line 0).effective = .r500 ∧ (t.line 0).enrol.bound = 1 := by
  decide +kernel

/-- R45: an ONLINE slot holds the ID: the fixture is to be given up. -/
theorem test_caps_duplicate :
    let s := bound (State.reset.setLine 0
      (busyLine .enrolling (offering 5 2 1) (exchangeOf (.assign 5 2) .window 2000))) 3 (head 5 1 true)
    ((after (.capsReceived 0 (capsFrom 2)) s).line 0).enrol.giveUp = some { address := 2, condition := .duplicateId } := by
  decide +kernel

/-- R43: the first failure sends the ASSIGN again; the second gives the fixture up. -/
theorem test_caps_window_expiry :
    let s (k : Nat) := State.reset.setLine 0 (busyLine .enrolling (offering 5 2 k) (exchangeOf (.assign 5 2) .window 1000))
    ((after (.capsWindowExpiry 0) (s 1)).line 0).enrol.attempt = some 2 ∧
      ((after (.capsWindowExpiry 0) (s 2)).line 0).enrol.giveUp =
        some { address := 2, condition := .enrolFailed } := by
  decide +kernel

/-- R43: an emitter count of 6 makes the CAPS not good. -/
theorem test_caps_failure :
    let bad := asCharacters (lineBytes 2 6#8 [0, 0, 1, 0, 2, 0, 7, 6, 1, 0, 20, 0, 30])
    let s := State.reset.setLine 0 (busyLine .enrolling (offering 5 2 1) (exchangeOf (.assign 5 2) .window 2000))
    ((after (.capsFailure 0 bad) s).line 0).enrol.attempt = some 2 := by
  decide +kernel

theorem test_line_frame_end :
    let s := State.reset.setLine 0
      (busyLine .sending (EnrolRecord.atRest 0) (exchangeOf (.set 3 9 1 2 [3, 4, 5]) .frame 1000))
    ((after (.lineFrameEnd 0) s).line 0).exchange.map (fun x => (x.phase, x.ends)) = some (.window, 1000 + 300 + 320) := by
  decide +kernel

/-- The ACK of address 9 with POSITION_LOST set, pan 40, tilt 50. -/
def lostAck : List RxChar := asCharacters (lineBytes 9 3#8 [8, 0, 40, 0, 50])

/-- R49, R126, R151: a good ACK in which POSITION_LOST enters. -/
theorem test_reply_end :
    let s := bound (liveOn State.reset .cl3 |>.setLine 0
      (busyLine .awaiting (EnrolRecord.atRest 0) (exchangeOf (.set 3 9 1 2 [3, 4, 5]) .window 2000))) 3
      { head 1 9 true with misses := 2 }
    let t := after (.replyEnd 0 lostAck) s
    (t.slot 3).fixture.map (fun f => (f.misses, f.refPan, f.refTilt)) = some (0, 40, 50) ∧
      (t.link .cl3).notices = [.fixtureCondition 3 .positionLost true] := by
  decide +kernel

/-- R140, R152: a checked ACK from another address, its last character broken. -/
theorem test_reply_end_wrong_address :
    let s := bound (liveOn State.reset .cl3 |>.setLine 0
      (busyLine .awaiting (EnrolRecord.atRest 0) (exchangeOf (.set 3 8 1 2 [3, 4, 5]) .window 2000))) 3 (head 1 8 true)
    let t := after (.replyEnd 0 (lostAck.take 7 ++ (lostAck.drop 7).map (fun c => { c with stopOk := false }))) s
    (t.slot 3).fixture.map (·.misses) = some 1 ∧ (t.link .cl3).notices = [.lineCondition 0 .wrongAddress true] := by
  decide +kernel

/-- R50: the third miss puts the slot MISSING. -/
theorem test_reply_window_expiry :
    let s := bound (liveOn State.reset .cl3 |>.setLine 0
      (busyLine .awaiting (EnrolRecord.atRest 0) (exchangeOf (.set 3 9 1 2 [3, 4, 5]) .window 1000))) 3
      { head 1 9 true with misses := 2 }
    let t := after (.replyWindowExpiry 0) s
    (t.slot 3).state = .missing ∧ (t.link .cl3).notices = [.fixtureGone 3 0 9 .misses] ∧ (t.line 0).seq = .idle := by
  decide +kernel

theorem test_late_characters :
    ((after (.lateCharacters 0) (State.reset.setLine 0 { idleLine with restRate := .r1000 })).line 0).restedAt =
      1020 := by
  decide +kernel

/-! ### Steps -/

/-- With no command waiting a microsecond passes. -/
theorem test_idle_step :
    (match step State.reset with
      | .next t => t.micros
      | _ => 0) = 1001 := by
  decide +kernel

/-- The table gives bits to no row: no word spells a command. -/
theorem test_no_words (nbits w : Nat) : decodeTableWord nbits w = none := rfl

end Sys2Proof.Tests
end

