-- ==== Sys2Proof/Tests/Witnesses.lean ====
section
/-! SUPPORT. Tests/Witnesses.lean: for every obligation with hypotheses, a concrete state and operands that meet all of
them together, and for a statement of several clauses one for each clause, at a boundary value where it has a range. The
part of a name after `witness_` is the obligation's, and what follows it names the clause. -/

namespace Sys2Proof.Tests

open Sys2Proof Sys2Proof.Machine

/- Each witness is a small evaluation; one after another they need few threads. -/
set_option Elab.async false

/-! ### The machine as a whole -/

theorem witness_StepRunsTheFrontCommand_idle : State.reset.pending = [] := rfl

theorem witness_EveryCommandCompletes :
    Instr.keep .cl0 ≠ .leaveReset ∧ (∀ x, Instr.keep .cl0 ≠ .powerOnReset x) ∧ (∀ h, Instr.keep .cl0 ≠ .resetNChange h) ∧
      ∀ h, Instr.keep .cl0 ≠ .safeNChange h := by simp

/-- RESET_N low for exactly 1 ms. -/
theorem witness_ResetIsEntered_low :
    { State.reset with resetNHigh := false }.resetNHigh = false ∧
      1000 ≤ { State.reset with resetNHigh := false }.micros - { State.reset with resetNHigh := false }.resetNChangedAt := by
  decide

/-- RESET_N low for 999 µs. -/
theorem witness_ResetIsEntered_short :
    { State.reset with resetNHigh := false, resetNChangedAt := 1 }.resetNHigh = false ∧
      { State.reset with resetNHigh := false, resetNChangedAt := 1 }.micros -
        { State.reset with resetNHigh := false, resetNChangedAt := 1 }.resetNChangedAt < 1000 := by
  decide

theorem witness_ResetIsEntered_in_reset :
    { State.reset with inReset := true }.inReset = true ∧ Instr.stepExpiry ≠ .leaveReset ∧
      (∀ x, Instr.stepExpiry ≠ .powerOnReset x) ∧ (∀ h, Instr.stepExpiry ≠ .resetNChange h) ∧
      ∀ h, Instr.stepExpiry ≠ .safeNChange h := by simp

theorem witness_ResetIsEntered_levels :
    State.reset.resetNHigh ≠ false ∧ State.reset.resetNHigh = true ∧ State.reset.safeNHigh ≠ false ∧
      State.reset.safeNHigh = true := by decide

theorem witness_ResetIsLeft_leaves :
    let s := { State.reset with inReset := true }
    s.inReset = true ∧ s.resetNHigh = true ∧ 1000 ≤ s.micros - s.resetNChangedAt ∧ s.supplyInRange = true := by decide

theorem witness_ResetIsLeft_stays :
    let s := { State.reset with inReset := true }
    ({ s with resetNHigh := false }.resetNHigh = false ∧ { s with resetNHigh := false }.inReset = true) ∧
      ({ s with micros := 999 }.micros - { s with micros := 999 }.resetNChangedAt < 1000 ∧
        { s with micros := 999 }.inReset = true) ∧
      { s with supplyInRange := false }.supplyInRange = false ∧ { s with supplyInRange := false }.inReset = true := by
  decide +kernel

/-! ### Frames and requests -/

/-- A frame of 248 payload bytes is received; a run with a bad stop bit is not the run of any frame. -/
theorem witness_ControlFramesAreReadAsWritten :
    let f : Frame := { tag := 5, kind := 0x18, payload := List.replicate 248 1 }
    f.payload.length ≤ 248 ∧
      ((asCharacters (controlFrame f.tag f.kind f.payload)).foldl Assembler.take Assembler.empty).goodFrame = some f := by
  set_option maxRecDepth 20000 in decide +kernel

/-- A STEP of eight steps with its low mark at 7, and its slot numbers at the ends. -/
def fullStep : Request :=
  .step (.range 0 192) .aim .append (some .loop) (some 7)
    (List.replicate 8 { target := [0, 65535], duration := 4294967295, dwell := 0, curve := .snapEnd, tie := true })

theorem witness_RequestsAreReadAsWritten : fullStep.Fits ∧ (frameOf fullStep).request = some fullStep := by
  refine ⟨?_, by decide +kernel⟩
  simp [fullStep, Request.Fits, SlotSet.Fits, StepFields.Fits, Group.width, FitsWord, FitsLong]

/-! ### The Link Interface -/

/-- A link of which four frames are queued, and one of which three are. -/
def queued (k : Nat) : State :=
  State.reset.setLink .cl0 { LinkRec.reset 0 with
    state := .live, inHand := some (frameOf .keep), requests := List.replicate k (frameOf .keep) }

theorem witness_FramesArrive_good :
    ((queued 3).inReset = false ∧ ((queued 3).link .cl0).assembler = Assembler.empty ∧
        ((queued 3).link .cl0).requests.length < 4) ∧
      (queued 4).inReset = false ∧ ((queued 4).link .cl0).assembler = Assembler.empty ∧
        ¬((queued 4).link .cl0).requests.length < 4 ∧ (frameOf .keep).payload.length ≤ 248 ∧
        ((queued 4).link .cl0).state = .live := by
  decide +kernel

/-- The ACTIVE link is IDLE and the STANDBY link speaks; its claim waits in SHADOW. -/
theorem witness_FramesArrive_swap :
    let s := withClaims State.reset [{ restClaim 0 .cl1 191 .level [500] with role := .shadow }] []
    s.inReset = false ∧ (s.link .cl1).assembler = Assembler.empty ∧ (frameOf .keep).payload.length ≤ 248 ∧
      Link.cl1 = s.pair.standbyLink ∧ (s.link .cl1).state ≠ .live ∧ (s.link s.pair.activeLink).state ≠ .live ∧
      s.RolesSound := by
  refine ⟨rfl, by decide +kernel, by decide +kernel, rfl, by decide +kernel, by decide +kernel, fun c hc => ?_⟩
  simp only [withClaims, List.mem_singleton] at hc
  subst hc; rfl

theorem witness_FramesArrive_bad :
    State.reset.inReset = false ∧ (State.reset.link .cl0).assembler = Assembler.empty ∧
      ∀ f : Frame, f.payload.length ≤ 248 →
        [({ byte := 0, stopOk := false } : RxChar)] ≠ asCharacters (controlFrame f.tag f.kind f.payload) := by
  refine ⟨rfl, by decide, fun f _ h => ?_⟩
  have := congrArg (fun l => l.all (·.stopOk)) h
  simp [asCharacters] at this

/-- CL2, LIVE, 500 ms after its last good frame, with a claim that runs a step. -/
def fading : State :=
  { withClaims (liveOn State.reset .cl2)
      [{ restClaim 0 .cl2 40 .level [0] with running := some (running (plainStep 0 [65535]) [0]) }]
      [{ claim := 0, time := 1000 }] with micros := 501000 }

theorem fading_pools : fading.PoolsSound :=
  pools_one (c := { restClaim 0 .cl2 40 .level [0] with running := some (running (plainStep 0 [65535]) [0]) }) rfl
    (by decide) (by decide) (by decide) (.inr ⟨_, rfl, by decide, by decide +kernel⟩)

theorem witness_SilenceReleasesAFeed_runs_out :
    fading.inReset = false ∧ fading.PoolsSound ∧ (fading.link .cl2).state = .live ∧
      (fading.link .cl2).silenceLimit ≤ elapsed (fading.link .cl2).lastGood fading.now := by
  refine ⟨rfl, fading_pools, ?_, ?_⟩ <;> decide +kernel

theorem witness_SilenceReleasesAFeed_stays :
    (State.reset.inReset = false ∧ (State.reset.link .cl3).state ≠ .live) ∧
      { fading with micros := 500999 }.inReset = false ∧
      elapsed ({ fading with micros := 500999 }.link .cl2).lastGood { fading with micros := 500999 }.now <
        ({ fading with micros := 500999 }.link .cl2).silenceLimit := by
  decide +kernel

/-- An answer to a KEEP. -/
def someAnswer : Answer :=
  { tag := 1, kind := 0x98, status := .ok
    flags := { requestOverrun := false, noticeOverflow := false, safetyActive := false }, data := .none }

def sender (a : Option Answer) (ns : List Notice) (x : Option Sending) (ready : Nat) : State :=
  State.reset.setLink .cl1 { LinkRec.reset 0 with
    state := .live, answer := a, notices := ns, sending := x, txReady := ready }

theorem witness_TransmitterSendsAnswersFirst_begins :
    let s := sender (some someAnswer) [.handoverAsked .cl0] none 1000
    let t := sender none [.handoverAsked .cl0] none 1000
    let u := sender none [] none 1000
    (s.inReset = false ∧ (s.link .cl1).state ≠ .silent ∧ (s.link .cl1).sending = none ∧
        (s.link .cl1).txReady ≤ s.micros ∧ (s.link .cl1).answer = some someAnswer) ∧
      ((t.link .cl1).answer = none ∧ (t.link .cl1).notices = [.handoverAsked .cl0]) ∧
      (u.link .cl1).answer = none ∧ (u.link .cl1).notices = [] := by
  decide +kernel

theorem witness_TransmitterSendsAnswersFirst_waits :
    let going : Sending := { isAnswer := false, bytes := [], ends := 1001 }
    ((State.reset.setLink .cl1 { LinkRec.reset 0 with state := .silent }).link .cl1).state = .silent ∧
      ((sender none [] (some going) 0).link .cl1).sending.isSome = true ∧
      (sender none [] none 1001).micros < ((sender none [] none 1001).link .cl1).txReady ∧
      (sender none [] (some going) 0).micros < going.ends := by
  decide +kernel

theorem witness_TransmitterSendsAnswersFirst_ends :
    let gone : Sending := { isAnswer := true, bytes := [], ends := 1000 }
    ((sender (some someAnswer) [] (some gone) 0).link .cl1).sending = some gone ∧
      gone.ends ≤ (sender (some someAnswer) [] (some gone) 0).micros ∧
      (∀ x, ((sender none [] none 0).link .cl1).sending = some x → (sender none [] none 0).micros < x.ends) := by
  refine ⟨by decide +kernel, by decide +kernel, fun x h => ?_⟩
  simp [sender] at h

theorem witness_MalformedRequestsAreAnswered :
    let f : Frame := { tag := 3, kind := 0x06, payload := [] }
    let s := State.reset.setLink .cl1 { LinkRec.reset 0 with state := .live, inHand := some f }
    s.inReset = false ∧ (s.link .cl1).inHand = some f ∧ f.request = none ∧ ∀ r : Request, f.kind ≠ r.kind := by
  refine ⟨rfl, by decide +kernel, by decide +kernel, fun r => ?_⟩
  cases r <;> simp [Request.kind]

/-- The set whose last slot is 192, and the one whose last slot is 191. -/
theorem witness_SlotsOutsideAreRefused_sets :
    (SlotSet.range 191 2).slots = none ∧ (SlotSet.range 191 1).slots = some [191] := by
  decide +kernel

/-- A request in hand on a link, the state otherwise as after reset. -/
theorem inHand_reset (l : Link) (r : Request) (h : (frameOf r).request = some r) :
    (holding State.reset l r).InHand l (frameOf r) r :=
  holding_inHand rfl h

/-- The step the witnesses use. -/
def aStep (v : Value) : StepFields := { target := v, duration := 1, dwell := 0, curve := .linear, tie := false }

theorem witness_SlotsOutsideAreRefused_requests :
    let set := SlotSet.range 191 2
    (∃ s : State, s.InHand .cl0 (frameOf (.seize set .level)) (.seize set .level)) ∧
      (∃ s : State, s.InHand .cl0 (frameOf (.release set .level 0)) (.release set .level 0)) ∧
      (∃ s : State, s.InHand .cl0 (frameOf (.step set .level .replace none none [aStep [1]]))
        (.step set .level .replace none none [aStep [1]])) ∧
      (∃ s : State, s.InHand .cl0 (frameOf (.step set .level .append none none [aStep [1]]))
        (.step set .level .append none none [aStep [1]])) ∧
      (∃ s : State, s.InHand .cl0 (frameOf (.halt set .level)) (.halt set .level)) ∧
      (∃ s : State, s.InHand .cl0 (frameOf (.setMode set .level .loop 7)) (.setMode set .level .loop 7)) ∧
      (∃ s : State, s.InHand .cl0 (frameOf (.forget set)) (.forget set)) ∧
      (∃ s : State, s.InHand .cl0 (frameOf (.readSlot 192)) (.readSlot 192)) ∧
      ∃ s : State, s.InHand .cl0 (frameOf (.readClaims 192 .aim)) (.readClaims 192 .aim) := by
  refine ⟨⟨_, inHand_reset _ _ ?_⟩, ⟨_, inHand_reset _ _ ?_⟩, ⟨_, inHand_reset _ _ ?_⟩, ⟨_, inHand_reset _ _ ?_⟩,
    ⟨_, inHand_reset _ _ ?_⟩, ⟨_, inHand_reset _ _ ?_⟩, ⟨_, inHand_reset _ _ ?_⟩, ⟨_, inHand_reset _ _ ?_⟩,
    ⟨_, inHand_reset _ _ ?_⟩⟩ <;> decide +kernel

/-- The settings the witnesses use, each time at the end of its range. -/
def settings (on : Bool) : LineSettings :=
  { line := 0, enabled := on, rate := .r2000, replyWindow := 2000, refreshPeriod := 100, joinPeriod := 10001 }

theorem witness_RequestsNeedTheirRole_setup :
    Link.cl1 ≠ (holding State.reset .cl1 .rigClear).pair.activeLink ∧
      (∃ s : State, s.InHand .cl1 (frameOf (.setLine (settings true))) (.setLine (settings true))) ∧
      (∃ s : State, s.InHand .cl1 (frameOf (.enrolLine 5 true)) (.enrolLine 5 true)) ∧
      (∃ s : State, s.InHand .cl1 (frameOf (.enrolLine 5 false)) (.enrolLine 5 false)) ∧
      (∃ s : State, s.InHand .cl1 (frameOf (.setType 7 defaultMatrix)) (.setType 7 defaultMatrix)) ∧
      (∃ s : State, s.InHand .cl1 (frameOf (.forget (.range 191 1))) (.forget (.range 191 1))) ∧
      (∃ s : State, s.InHand .cl1 (frameOf (.setLink .cl3 100 0)) (.setLink .cl3 100 0)) ∧
      (∃ s : State, s.InHand .cl1 (frameOf (.setPair 0)) (.setPair 0)) ∧
      ∃ s : State, s.InHand .cl1 (frameOf .rigClear) .rigClear := by
  refine ⟨by decide +kernel, ⟨_, inHand_reset _ _ ?_⟩, ⟨_, inHand_reset _ _ ?_⟩, ⟨_, inHand_reset _ _ ?_⟩,
    ⟨_, inHand_reset _ _ ?_⟩, ⟨_, inHand_reset _ _ ?_⟩, ⟨_, inHand_reset _ _ ?_⟩, ⟨_, inHand_reset _ _ ?_⟩,
    ⟨_, inHand_reset _ _ ?_⟩⟩ <;> decide +kernel

theorem witness_RequestsNeedTheirRole_pair :
    Link.cl0 ≠ State.reset.pair.standbyLink ∧ Link.cl1 ≠ State.reset.pair.activeLink ∧
      ((holding State.reset .cl0 (.handoverGive 0)).link State.reset.pair.standbyLink).state ≠ .live ∧
      (∃ s : State, s.InHand .cl0 (frameOf .handoverAsk) .handoverAsk) ∧
      (∃ s : State, s.InHand .cl0 (frameOf (.override true 0)) (.override true 0)) ∧
      (∃ s : State, s.InHand .cl0 (frameOf (.override false 0)) (.override false 0)) ∧
      (∃ s : State, s.InHand .cl1 (frameOf .handoverDecline) .handoverDecline) ∧
      (∃ s : State, s.InHand .cl1 (frameOf (.safeClear 0)) (.safeClear 0)) ∧
      (∃ s : State, s.InHand .cl1 (frameOf (.handoverGive 0)) (.handoverGive 0)) ∧
      (holding State.reset .cl0 (.handoverGive 0)).InHand .cl0 (frameOf (.handoverGive 0)) (.handoverGive 0) := by
  refine ⟨by decide, by decide, by decide +kernel, ⟨_, inHand_reset _ _ ?_⟩, ⟨_, inHand_reset _ _ ?_⟩,
    ⟨_, inHand_reset _ _ ?_⟩, ⟨_, inHand_reset _ _ ?_⟩, ⟨_, inHand_reset _ _ ?_⟩, ⟨_, inHand_reset _ _ ?_⟩,
    inHand_reset _ _ ?_⟩ <;> decide +kernel

/-- A limit of 100 that has run on a LIVE CL3, and the same 1 ms earlier; and one that has run on a LIVE CL1. -/
theorem witness_LinkAndPairSettingsAreStored_link :
    let r := Request.setLink .cl3 99 600001
    let q := Request.setLink .cl1 100 0
    let s := holding { liveOn State.reset .cl3 with micros := 101000 } .cl0 r
    let u := holding { liveOn State.reset .cl3 with micros := 100999 } .cl0 r
    let v := holding { liveOn State.reset .cl1 with micros := 101000 } .cl0 q
    (s.InHand .cl0 (frameOf r) r ∧ Link.cl0 = s.pair.activeLink ∧ Link.cl3 ≠ .cl0 ∧ (s.link .cl3).state = .live ∧
        max 100 (min 5000 99) ≤ elapsed (s.link .cl3).lastGood s.now ∧ s.PoolsSound) ∧
      (u.InHand .cl0 (frameOf r) r ∧ ¬max 100 (min 5000 99) ≤ elapsed (u.link .cl3).lastGood u.now) ∧
      v.InHand .cl0 (frameOf q) q ∧ Link.cl1 ≠ .cl0 ∧ (v.link .cl1).state = .live ∧
        max 100 (min 5000 100) ≤ elapsed (v.link .cl1).lastGood v.now ∧ v.RolesSound := by
  refine ⟨⟨holding_inHand rfl ?_, ?_, ?_, ?_, ?_, pools_empty rfl rfl⟩, ⟨holding_inHand rfl ?_, ?_⟩,
    holding_inHand rfl ?_, ?_, ?_, ?_, fun c hc => by cases hc⟩ <;> decide +kernel

theorem witness_LinkAndPairSettingsAreStored_pair :
    (holding State.reset .cl0 (.setPair 600001)).InHand .cl0 (frameOf (.setPair 600001)) (.setPair 600001) ∧
      Link.cl0 = (holding State.reset .cl0 (.setPair 600001)).pair.activeLink :=
  ⟨inHand_reset _ _ (by decide +kernel), by decide +kernel⟩

/-- A state with claims in range, and in every slot the values of reset. -/
theorem values_claims {s : State}
    (hs : ∀ n, (s.slot n).parked = Slot.reset.parked ∧ (s.slot n).fades = Slot.reset.fades)
    (hc : ∀ c ∈ s.claims, Value.Fits c.group c.rest ∧ (∀ r, c.running = some r → r.Fits c.group) ∧
      ∀ x ∈ c.queue, Value.Fits c.group x.target ∧ x.duration ≤ 600000 ∧ x.dwell ≤ 600000)
    (hp : s.pair.failoverFade ≤ 600000) (hl : s.links = State.reset.links) : s.ValuesSound := by
  refine ⟨fun n g => ?_, fun n g x h => ?_, hc, hp, fun l => ?_⟩
  · rw [(hs n).1]; cases g <;> simp [Value.Fits, Slot.reset, PerGroup.get, Group.width]
  · rw [(hs n).2] at h; cases g <;> cases h
  · rw [show s.link l = State.reset.link l by unfold State.link; rw [hl]]
    cases l <;> decide

/-- A state that holds no claim, and in every slot the values of reset. -/
theorem values_idle {s : State} (hs : ∀ n, (s.slot n).parked = Slot.reset.parked ∧ (s.slot n).fades = Slot.reset.fades)
    (hc : s.claims = []) (hp : s.pair.failoverFade ≤ 600000) (hl : s.links = State.reset.links) : s.ValuesSound :=
  values_claims hs (by simp [hc]) hp hl

theorem witness_KeepReportsItsLink : (holding State.reset .cl3 .keep).InHand .cl3 (frameOf .keep) .keep :=
  inHand_reset _ _ (by decide +kernel)

/-! ### Claims and steps -/

/-- A claim of CL2 above a claim of CL0 on slot 191's LEVEL. -/
def stacked : State :=
  withClaims State.reset [restClaim 0 .cl0 191 .level [100], restClaim 1 .cl2 191 .level [200]] []

theorem stacked_pools : stacked.PoolsSound := by
  constructor <;> simp [stacked, withClaims, restClaim, State.stepRecords, Claim.records]

theorem witness_OwnerIsTheHighestLiveClaim :
    (stacked.owner 191 .level).map (·.number) = some 1 ∧ stacked.owner 0 .level = none := by decide +kernel

/-- A crowd of claims, all of CL0 and CL2, with a SEIZE by CL3 in hand. -/
def crowded (m : Nat) (r : Request) : State := holding (withClaims State.reset (crowd m) []) .cl3 r

theorem crowded_pools {m : Nat} (h : m ≤ 1024) (r : Request) : (crowded m r).PoolsSound :=
  pools_crowd h rfl rfl (by simp [crowded, holding, withClaims, crowd])

theorem crowded_unclaimed (m : Nat) (r : Request) (n : SlotNo) (g : Group) : (crowded m r).claimOf .cl3 n g = none := by
  rw [State.claimOf_none]
  rintro c hc ⟨h, -⟩
  obtain ⟨k, -, rfl⟩ := List.mem_map.mp (show c ∈ crowd m from hc)
  simp only [crowdClaim, restClaim] at h
  split at h <;> cases h

theorem crowded_need (m : Nat) (r : Request) :
    (crowded m r).claims.length + ([191].filter (fun n => ((crowded m r).claimOf .cl3 n .level).isNone)).length =
      m + 1 := by
  have h : (crowded m r).claims.length = m := by
    show (crowd m).length = m
    simp [crowd]
  simp [crowded_unclaimed, h]

/-- The last record of the pool is taken; with none left the SEIZE is refused. -/
theorem witness_SeizeHoldsThePresentLook :
    let r := Request.seize (.range 191 1) .level
    (∀ m, m = 1023 ∨ m = 1024 → (crowded m r).PoolsSound ∧ (crowded m r).InHand .cl3 (frameOf r) r) ∧
      (SlotSet.range 191 1).slots = some [191] ∧
      ¬1024 < (crowded 1023 r).claims.length +
        ([191].filter (fun n => ((crowded 1023 r).claimOf .cl3 n .level).isNone)).length ∧
      1024 < (crowded 1024 r).claims.length +
        ([191].filter (fun n => ((crowded 1024 r).claimOf .cl3 n .level).isNone)).length := by
  refine ⟨fun m hm => ⟨crowded_pools (by omega) _, holding_inHand rfl (by decide +kernel)⟩, by decide +kernel, ?_, ?_⟩ <;>
    rw [crowded_need] <;> decide

/-- A claim held already is rebased. -/
theorem witness_SeizeHoldsThePresentLook_held :
    let r := Request.seize (.range 191 1) .level
    let s := holding stacked .cl2 r
    s.PoolsSound ∧ s.InHand .cl2 (frameOf r) r ∧ (s.claimOf .cl2 191 .level).isSome = true ∧
      ¬1024 < s.claims.length + ([191].filter (fun n => (s.claimOf .cl2 n .level).isNone)).length := by
  refine ⟨?_, holding_inHand rfl ?_, ?_, ?_⟩
  · constructor <;> simp [holding, stacked, withClaims, restClaim, State.stepRecords, Claim.records]
  all_goals decide +kernel

/-- CL2's claim, the owner, leaves CL0's behind; CL0's is not the owner; CL0 alone is the last; CL3 holds none. -/
theorem witness_ReleaseRemovesClaims :
    let r := Request.release (.range 191 1) .level 600001
    let alone := withClaims State.reset [restClaim 0 .cl0 191 .level [100]] []
    (∀ l, (holding stacked l r).PoolsSound ∧ (holding stacked l r).InHand l (frameOf r) r) ∧
      (holding alone .cl0 r).PoolsSound ∧ (SlotSet.range 191 1).slots = some [191] ∧
      [(191 : SlotNo)].all (fun n => ((holding stacked .cl3 r).claimOf .cl3 n .level).isNone) = true ∧
      ((holding stacked .cl2 r).claimOf .cl2 191 .level).map (·.number) = some 1 ∧
      (holding stacked .cl2 r).ownerNumber 191 .level = some 1 ∧
      ((holding stacked .cl0 r).claimOf .cl0 191 .level).map (·.number) = some 0 ∧
      (holding alone .cl0 r).claims.any
        (fun d => decide (d.slot = 191) && decide (d.group = .level) && decide (d.link ≠ .cl0)) = false := by
  refine ⟨fun l => ⟨?_, holding_inHand rfl (by decide +kernel)⟩, ?_, ?_, ?_, ?_, ?_, ?_, ?_⟩
  · constructor <;> simp [holding, stacked, withClaims, restClaim, State.stepRecords, Claim.records]
  · exact pools_one (c := restClaim 0 .cl0 191 .level [100]) rfl (by decide) (by decide) (by decide)
      (.inl ⟨rfl, rfl, rfl⟩)
  all_goals decide +kernel

/-- A step of no time. -/
def aJump (v : Value) : StepFields := { aStep v with duration := 0 }

/-- A step with a time of 1 ms; a step of no time; two of them; and one with a step of some time behind it. -/
theorem witness_StepReplaceStartsAtOnce :
    ∀ steps, steps = [aStep [1]] ∨ steps = [aJump [1]] ∨ steps = [aJump [1], aJump [2]] ∨
        steps = [aJump [1], aStep [65535]] →
      let r := Request.step (.range 191 1) .level .replace (some .oneShot) (some 0) steps
      (holding stacked .cl0 r).PoolsSound ∧ (holding stacked .cl0 r).InHand .cl0 (frameOf r) r ∧
        (SlotSet.range 191 1).slots = some [191] ∧
        PoolsCover (holding stacked .cl0 r) .cl0 .level [191] steps.length
          (recordsHeld (holding stacked .cl0 r) .cl0 .level [191]) := by
  intro steps h
  refine ⟨?_, holding_inHand rfl ?_, by decide +kernel, ?_⟩
  · constructor <;> simp [holding, stacked, withClaims, restClaim, State.stepRecords, Claim.records]
  · rcases h with rfl | rfl | rfl | rfl <;> decide +kernel
  · rcases h with rfl | rfl | rfl | rfl <;> (unfold PoolsCover; decide +kernel)

/-- Two claims of CL2 that run steps to 1000 and 1001 on the show clock, the first with a step of 1000 ms behind it; `ms`
milliseconds after reset. -/
def lined (ms : Nat) : State :=
  { withClaims (at_ ms)
      [{ restClaim 0 .cl2 190 .level [0] with
          running := some (running (plainStep 0 [65535]) [0]), queue := [plainStep 1 [7]] },
        { restClaim 1 .cl2 189 .level [0] with
          running := some (running { plainStep 2 [65535] with dwell := 1 } [0]) }]
      [{ claim := 0, time := 1000 }, { claim := 1, time := 1001 }] with inReset := false }

theorem lined_pools {s : State} {ms : Nat} (h1 : s.claims = (lined ms).claims) (h2 : s.expiryList = (lined ms).expiryList)
    (h3 : s.stampCount = 2) : s.PoolsSound := by
  constructor <;>
    simp [h1, h2, h3, lined, withClaims, restClaim, State.stepRecords, Claim.records, running, plainStep, Step.instant]

theorem lined_values (ms : Nat) : (lined ms).ValuesSound :=
  values_claims (fun n => by rw [show (lined ms).slot n = State.reset.slot n from rfl, reset_slot]; exact ⟨rfl, rfl⟩)
    (by simp [lined, withClaims, restClaim, running, plainStep, Value.Fits, RunningStep.Fits, Group.width])
    (by show State.reset.pair.failoverFade ≤ 600000; decide) rfl

/-- A step of 1000 ms whose expiry entry goes behind that of 1000 and before that of 1001, for a REPLACE and an APPEND. -/
theorem witness_StepReplaceStartsAtOnce_place :
    let x := { aStep [1] with duration := 1000 }
    ∀ option, option = .replace ∨ option = .append →
      let r := Request.step (.range 191 1) .level option none none [x]
      let s := holding (lined 0) .cl0 r
      s.PoolsSound ∧ s.InHand .cl0 (frameOf r) r ∧ PoolsCover s .cl0 .level [191] 1 0 ∧ s.ExpiriesNear ∧
        s.ExpiriesInOrder ∧ s.claimOf .cl0 191 .level = none ∧
        placed s.now 1000 [{ claim := 2, time := 1000 }] s.expiryList =
          [{ claim := 0, time := 1000 }, { claim := 2, time := 1000 }, { claim := 1, time := 1001 }] := by
  rintro x option h r s
  refine ⟨lined_pools (ms := 0) rfl rfl rfl, holding_inHand rfl ?_, ?_, ?_, ?_, ?_, ?_⟩
  · rcases h with rfl | rfl <;> decide +kernel
  · rcases h with rfl | rfl <;> (unfold PoolsCover; decide +kernel)
  · rcases h with rfl | rfl <;> (unfold State.ExpiriesNear; decide +kernel)
  · rcases h with rfl | rfl <;> (unfold State.ExpiriesInOrder; decide +kernel)
  · rcases h with rfl | rfl <;> decide +kernel
  · rcases h with rfl | rfl <;> decide +kernel

/-- The step that follows at 2000 goes behind the entry of 1001, at the reading at which the head falls due and when it
is 2^30 ms overdue. -/
theorem witness_StepsRetireInTurn_place :
    ∀ ms, ms = 1000 ∨ ms = 1073742824 →
      (lined ms).PoolsSound ∧ (lined ms).inReset = false ∧ elapsed 1000 (lined ms).now < 2147483648 ∧
        (lined ms).ValuesSound ∧ (lined ms).ExpiriesNear ∧ (lined ms).ExpiriesInOrder := by
  intro ms h
  refine ⟨lined_pools (ms := ms) rfl rfl rfl, rfl, ?_, lined_values ms, ?_, ?_⟩
  · rcases h with rfl | rfl <;> decide +kernel
  · rcases h with rfl | rfl <;> (unfold State.ExpiriesNear; decide +kernel)
  · rcases h with rfl | rfl <;> (unfold State.ExpiriesInOrder; decide +kernel)

/-- A claim of CL0 that runs a step with the steps of `queue` behind it. -/
def waitingClaim (queue : List Step) : Claim :=
  { restClaim 0 .cl0 191 .level [0] with running := some (running (plainStep 0 [65535]) [0]), queue := queue }

def waitingOn (queue : List Step) : State := withClaims State.reset [waitingClaim queue] [{ claim := 0, time := 1000 }]

/-- The same with k steps behind it. -/
def waitingBehind (k : Nat) : State := waitingOn (List.replicate k (plainStep 1 [7]))

theorem waitingOn_pools {queue : List Step} (h : queue.length ≤ 8) {s : State} (hc : s.claims = [waitingClaim queue])
    (he : s.expiryList = [{ claim := 0, time := 1000 }]) (ho : s.stampCount = 1) : s.PoolsSound :=
  pools_one (c := waitingClaim queue) hc (Nat.zero_lt_succ _) ⟨h, Nat.zero_le _⟩ (by rw [ho]; exact Nat.zero_lt_one)
    (.inr ⟨_, rfl, by decide, by rw [he]; rfl⟩)

theorem waitingBehind_pools {k : Nat} (h : k ≤ 8) (l : Link) (r : Request) :
    (holding (waitingBehind k) l r).PoolsSound :=
  waitingOn_pools (queue := List.replicate k (plainStep 1 [7])) (by simpa using h) rfl rfl rfl

/-- The eighth step joins a queue of seven; a claim at rest starts the first step, be it one of no time. -/
theorem witness_StepAppendWaitsItsTurn :
    let r := Request.step (.range 191 1) .level .append none none [aStep [1]]
    let s := holding (waitingBehind 7) .cl0 r
    (s.PoolsSound ∧ s.InHand .cl0 (frameOf r) r ∧ PoolsCover s .cl0 .level [191] 1 0 ∧
        (∀ n ∈ [191], ∀ c, s.claimOf .cl0 n .level = some c → c.running.isSome = true → c.queue.length + 1 ≤ 8) ∧
        (s.claimOf .cl0 191 .level).map (fun c => (c.running.isSome, c.queue.length)) = some (true, 7)) ∧
      ∀ steps, steps = [aStep [1]] ∨ steps = [aJump [1], aStep [2]] →
        let q := Request.step (.range 191 1) .level .append none none steps
        let u := holding stacked .cl0 q
        u.PoolsSound ∧ u.InHand .cl0 (frameOf q) q ∧ PoolsCover u .cl0 .level [191] steps.length 0 ∧
          (u.claimOf .cl0 191 .level).map (·.running) = some none := by
  refine ⟨⟨waitingBehind_pools (by decide) _ _, holding_inHand rfl (by decide +kernel),
    by unfold PoolsCover; decide +kernel, ?_, by decide +kernel⟩, fun steps h => ?_⟩
  · intro n hn c hc _
    simp only [List.mem_singleton] at hn
    subst hn
    have hm := (State.claimOf_mem hc).1
    simp [holding, waitingBehind, waitingOn, waitingClaim, withClaims] at hm
    subst hm
    simp
  · refine ⟨?_, holding_inHand rfl ?_, ?_, ?_⟩
    · constructor <;> simp [holding, stacked, withClaims, restClaim, State.stepRecords, Claim.records]
    · rcases h with rfl | rfl <;> decide +kernel
    · rcases h with rfl | rfl <;> (unfold PoolsCover; decide +kernel)
    · rcases h with rfl | rfl <;> decide +kernel

theorem witness_StepIsRefusedWhole_pool :
    let r := Request.step (.range 191 1) .level .replace none none [aStep [1]]
    let q := Request.step (.range 191 1) .level .append none none [aStep [1]]
    (∀ x, x = r ∨ x = q → (crowded 1024 x).PoolsSound ∧ (crowded 1024 x).InHand .cl3 (frameOf x) x ∧
        ∀ returned, ¬PoolsCover (crowded 1024 x) .cl3 .level [191] 1 returned) ∧
      (SlotSet.range 191 1).slots = some [191] := by
  refine ⟨fun x hx => ⟨crowded_pools le_rfl _, holding_inHand rfl ?_, fun k h => ?_⟩, by decide +kernel⟩
  · rcases hx with rfl | rfl <;> decide +kernel
  · have := h.1
    rw [crowded_need] at this
    omega

theorem witness_StepIsRefusedWhole_queue :
    let q := Request.step (.range 191 1) .level .append none none [aStep [1]]
    let s := holding (waitingBehind 8) .cl0 q
    s.PoolsSound ∧ s.InHand .cl0 (frameOf q) q ∧ PoolsCover s .cl0 .level [191] 1 0 ∧
      ((s.claimOf .cl0 191 .level).any fun c => c.running.isSome && decide (8 < c.queue.length + 1)) = true := by
  refine ⟨waitingBehind_pools le_rfl _ _, holding_inHand rfl ?_, ?_, ?_⟩
  · decide +kernel
  · unfold PoolsCover; decide +kernel
  · decide +kernel

theorem witness_HaltFreezesClaims :
    let r := Request.halt (.range 191 1) .level
    (∀ l, (holding (waitingBehind 8) l r).PoolsSound ∧ (holding (waitingBehind 8) l r).InHand l (frameOf r) r) ∧
      (SlotSet.range 191 1).slots = some [191] ∧
      [(191 : SlotNo)].all (fun n => ((holding (waitingBehind 8) .cl1 r).claimOf .cl1 n .level).isNone) = true ∧
      [(191 : SlotNo)].all (fun n => ((holding (waitingBehind 8) .cl0 r).claimOf .cl0 n .level).isNone) = false := by
  refine ⟨fun l => ⟨waitingBehind_pools le_rfl _ _, holding_inHand rfl (by decide +kernel)⟩, ?_, ?_, ?_⟩ <;>
    decide +kernel

theorem witness_SetModeChangesClaims :
    let r := Request.setMode (.range 191 1) .level .loop 7
    (∀ l, (holding (waitingBehind 8) l r).PoolsSound ∧ (holding (waitingBehind 8) l r).InHand l (frameOf r) r) ∧
      (SlotSet.range 191 1).slots = some [191] ∧
      [(191 : SlotNo)].all (fun n => ((holding (waitingBehind 8) .cl1 r).claimOf .cl1 n .level).isNone) = true ∧
      [(191 : SlotNo)].all (fun n => ((holding (waitingBehind 8) .cl0 r).claimOf .cl0 n .level).isNone) = false := by
  refine ⟨fun l => ⟨waitingBehind_pools le_rfl _ _, holding_inHand rfl (by decide +kernel)⟩, ?_, ?_, ?_⟩ <;>
    decide +kernel

/-- A step that expires at 1000, read at 1000, with none behind it, with one, and with one of no time before one. -/
theorem witness_StepsRetireInTurn_due :
    ∀ queue, queue = [] ∨ queue = [plainStep 1 [7]] ∨
        queue = [{ plainStep 1 [7] with duration := 0 }, plainStep 2 [8]] →
      let s := { waitingOn queue with micros := 1001000 }
      s.PoolsSound ∧ s.inReset = false ∧ s.expiryList = [{ claim := 0, time := 1000 }] ∧
        elapsed 1000 s.now < 2147483648 ∧ waitingClaim queue ∈ s.claims ∧ (waitingClaim queue).number = 0 ∧
        (waitingClaim queue).running = some (running (plainStep 0 [65535]) [0]) := by
  intro queue h
  refine ⟨waitingOn_pools (queue := queue) ?_ rfl rfl rfl, rfl, rfl, ?_, List.mem_singleton_self _, rfl, rfl⟩
  all_goals rcases h with rfl | rfl | rfl <;> decide +kernel

theorem witness_StepsRetireInTurn_not_due :
    let s := withClaims State.reset [] [{ claim := 0, time := 2147483648 }]
    s.inReset = false ∧ s.expiryList = [{ claim := 0, time := 2147483648 }] ∧
      2147483648 ≤ elapsed 2147483648 s.now ∧ State.reset.expiryList = [] := by
  decide +kernel

theorem witness_RigClearParksEveryGroup :
    (holding State.reset .cl0 .rigClear).InHand .cl0 (frameOf .rigClear) .rigClear ∧
      Link.cl0 = (holding State.reset .cl0 .rigClear).pair.activeLink :=
  ⟨inHand_reset _ _ (by decide +kernel), by decide +kernel⟩

/-! ### Arithmetic -/

theorem witness_FractionOfAMove :
    (1 ≤ 1 ∧ 0 < 1) ∧ (1 ≤ 600000 ∧ 10 < 600000 ∧ 10 ≤ 10) ∧ (65537 ≤ 65537 ∧ 1 < 65537 ∧ 1 ≤ 1) ∧
      elapsed (running (plainStep 0 [5]) [0]).startTime 1000 = (running (plainStep 0 [5]) [0]).step.duration := by
  decide

theorem witness_ShapedFraction : 65535 ≤ 65535 ∧ 0 ≤ 65535 := by decide

theorem witness_InterpolatedValue :
    (0 ≤ 65535 ∧ 65535 ≤ 65535 ∧ 0 ≤ 65535) ∧ 65535 ≤ 65535 ∧ ¬65535 ≤ 0 ∧ 0 ≤ 65535 := by decide

/-- The three cases of R120 at their ends: w = A, w = A + 1 and w = −A − 1. -/
theorem witness_AimMoveIsLimited :
    (-(400 : Int) ≤ (15400 : Int) - 15000 ∧ (15400 : Int) - 15000 ≤ 400) ∧ (400 : Int) < (15401 : Int) - 15000 ∧
      (14599 : Int) - 15000 < -(400 : Int) ∧ 15401 ≤ 65535 := by decide

theorem witness_RawLevelsAreBroughtIntoGamut :
    defaultMatrix.toList[4]? = some ⟨0, 0, 0⟩ ∧ 4 < 5 ∧ outOfGamut [65535, 0] = false ∧ outOfGamut [65536, 0] = true ∧
      [65536, 0][0]? = some 65536 ∧ (gamutScale [65536, 0])[0]? = some 65535 := by decide

theorem witness_EmitterLevelsFollowLevel : 65535 ≤ 65535 ∧ 0 ≤ 65535 := by decide

/-! ### The console pair -/

theorem roles_empty {s : State} (h : s.claims = []) : s.RolesSound := fun c hc => by simp [h] at hc

theorem witness_HandoverIsAskedAndDeclined :
    let asked := { State.reset with pair := { State.reset.pair with askPending := true } }
    (∀ s, s = State.reset ∨ s = asked →
        (holding s .cl1 .handoverAsk).InHand .cl1 (frameOf .handoverAsk) .handoverAsk ∧
          (holding s .cl0 .handoverDecline).InHand .cl0 (frameOf .handoverDecline) .handoverDecline) ∧
      Link.cl1 = asked.pair.standbyLink ∧ Link.cl0 = asked.pair.activeLink ∧ asked.pair.askPending = true ∧
      State.reset.pair.askPending = false := by
  refine ⟨fun s hs => ⟨holding_inHand ?_ (by decide +kernel), holding_inHand ?_ (by decide +kernel)⟩, ?_, ?_, ?_, ?_⟩
  · rcases hs with rfl | rfl <;> rfl
  · rcases hs with rfl | rfl <;> rfl
  all_goals decide

theorem witness_HandoverGiveSwapsTheRoles :
    let r := Request.handoverGive 600001
    let s := holding (liveOn State.reset .cl1) .cl0 r
    s.RolesSound ∧ s.InHand .cl0 (frameOf r) r ∧ Link.cl0 = s.pair.activeLink ∧
      (s.link s.pair.standbyLink).state = .live :=
  ⟨roles_empty rfl, holding_inHand rfl (by decide +kernel), by decide +kernel, by decide +kernel⟩

/-- A SHADOW claim of CL1, for which the override changes the role. -/
theorem witness_OverrideChangesTheStandbyClaims :
    let s := withClaims State.reset [{ restClaim 0 .cl1 1 .level [500] with role := .shadow }] []
    ∀ on, (holding s .cl1 (.override on 0)).RolesSound ∧
      (holding s .cl1 (.override on 0)).InHand .cl1 (frameOf (.override on 0)) (.override on 0) ∧
      Link.cl1 = s.pair.standbyLink ∧ s.pair.override = false := by
  intro s on
  refine ⟨?_, holding_inHand rfl ?_, by decide +kernel, by decide +kernel⟩
  · intro c hc
    simp only [holding, State.setLink_claims, s, withClaims, List.mem_singleton] at hc
    subst hc; rfl
  · cases on <;> decide +kernel

/-- CL0 runs out with CL1 LIVE and with CL1 IDLE; CL1 runs out with override on, with an ask pending, and with neither. -/
theorem witness_ConsoleSilenceReachesThePair :
    let base := { liveOn (liveOn State.reset .cl0) .cl1 with micros := 501000 }
    let alone := { liveOn State.reset .cl0 with micros := 501000 }
    let ridden := { base with pair := { base.pair with override := true } }
    let asked := { base with pair := { base.pair with askPending := true } }
    (∀ s, s = base ∨ s = ridden ∨ s = asked →
        s.inReset = false ∧ s.RolesSound ∧ (s.link .cl1).state = .live ∧
          (s.link .cl1).silenceLimit ≤ elapsed (s.link .cl1).lastGood s.now ∧ Link.cl1 = s.pair.standbyLink ∧
          Link.cl0 = s.pair.activeLink ∧ (s.link .cl0).state = .live ∧
          (s.link .cl0).silenceLimit ≤ elapsed (s.link .cl0).lastGood s.now) ∧
      alone.RolesSound ∧ (alone.link .cl0).state = .live ∧ (alone.link .cl1).state ≠ .live := by
  refine ⟨fun s hs => ?_, roles_empty rfl, by decide +kernel, by decide +kernel⟩
  rcases hs with rfl | rfl | rfl <;> refine ⟨rfl, roles_empty rfl, ?_, ?_, ?_, ?_, ?_, ?_⟩ <;> decide +kernel

/-! ### The Safety Layer -/

theorem witness_SafetyInputIsFollowed :
    let low := { State.reset with safeNHigh := false, micros := 11000 }
    let high := { State.reset with safeAsserted := true, safety := .holding, micros := 11000 }
    (low.inReset = false ∧ low.safeNHigh = false ∧ low.safeAsserted = false ∧ 10000 ≤ low.micros - low.safeNChangedAt) ∧
      (high.safeNHigh = true ∧ high.safeAsserted = true ∧ 10000 ≤ high.micros - high.safeNChangedAt) ∧
      { low with micros := 10999 }.micros - { low with micros := 10999 }.safeNChangedAt < 10000 := by
  decide

theorem witness_SafeClearBringsTheLightBack :
    ∀ x : SafetyState,
      let s := holding { State.reset with safety := x } .cl0 (.safeClear 600001)
      s.InHand .cl0 (frameOf (.safeClear 600001)) (.safeClear 600001) ∧ Link.cl0 = s.pair.activeLink ∧ s.safety = x :=
  fun _ => ⟨holding_inHand rfl (by decide +kernel), rfl, rfl⟩

/-! ### Setup and queries -/

/-- Line 0 as given, with a SET_LINE in hand on the ACTIVE link. -/
theorem setLine_hypotheses {r : LineRec} (hr : r.Sound) (on : Bool) :
    let s := holding (State.reset.setLine 0 r) .cl0 (.setLine (settings on))
    s.LinesSound ∧ s.InHand .cl0 (frameOf (.setLine (settings on))) (.setLine (settings on)) ∧
      Link.cl0 = s.pair.activeLink ∧ s.line (settings on).line = r := by
  refine ⟨lines_one rfl hr, holding_inHand rfl ?_, rfl, ?_⟩
  · cases on <;> decide +kernel
  · exact State.setLine_line_self State.reset 0 r

/-- A line that awaits a reply. -/
def awaitingLine : LineRec :=
  busyLine .awaiting (EnrolRecord.atRest 0) (exchangeOf (.set 3 9 1 2 [3, 4, 5]) .window 2000)

theorem awaitingLine_sound : awaitingLine.Sound := by
  constructor <;> simp [awaitingLine, busyLine, LineRec.reset, EnrolRecord.atRest, exchangeOf, LineFrame.slotAddress]
  · rintro x u a rfl; simp
  · rintro x a rfl; simp

theorem witness_SetLineSetsUpItsLine :
    (∀ r, r = offLine ∨ r = idleLine ∨ r = LineRec.reset ∨ r = awaitingLine → ∀ on,
      ∃ s : State, s.LinesSound ∧ s.InHand .cl0 (frameOf (.setLine (settings on))) (.setLine (settings on)) ∧
        Link.cl0 = s.pair.activeLink ∧ s.line (settings on).line = r) ∧
      offLine.seq = .off ∧ idleLine.seq = .idle ∧
      (LineRec.reset.seq = .enrolling ∧ LineRec.reset.exchange = none) ∧ awaitingLine.exchange.isSome = true := by
  refine ⟨fun r hr on => ⟨_, setLine_hypotheses ?_ on⟩, rfl, rfl, ⟨rfl, rfl⟩, rfl⟩
  rcases hr with rfl | rfl | rfl | rfl
  · exact offLine_sound
  · exact idleLine_sound
  · exact resetLine_sound
  · exact awaitingLine_sound

theorem witness_EnrolLineBeginsAnOperation :
    ∀ full, ∀ r, r = offLine ∨ r = LineRec.reset ∨ r = idleLine →
      let s := holding (State.reset.setLine 0 r) .cl0 (.enrolLine 0 full)
      s.InHand .cl0 (frameOf (.enrolLine 0 full)) (.enrolLine 0 full) ∧ Link.cl0 = s.pair.activeLink ∧ s.line 0 = r := by
  intro full r _
  refine ⟨holding_inHand rfl ?_, rfl, State.setLine_line_self State.reset 0 r⟩
  cases full <;> decide +kernel

/-- An empty table, a table that holds the code, and a full one that does not. -/
theorem witness_SetTypeWritesAnEntry :
    let r := Request.setType 7 defaultMatrix
    let full := { State.reset with types := Vector.replicate 16 (some { code := 8, matrix := defaultMatrix }) }
    ((holding State.reset .cl0 r).InHand .cl0 (frameOf r) r ∧ Link.cl0 = State.reset.pair.activeLink ∧
        (∀ j d, (holding State.reset .cl0 r).typeEntry j = some d → d.code ≠ 7) ∧
        (holding State.reset .cl0 r).typeEntry 0 = none) ∧
      ((holding full .cl0 r).InHand .cl0 (frameOf r) r ∧
        (∀ k e, (holding full .cl0 r).typeEntry k = some e → e.code ≠ 7) ∧
        ∀ k, ((holding full .cl0 r).typeEntry k).isSome = true) ∧
      ((holding full .cl0 r).typeEntry 0).map (·.code) = some 8 := by
  have hf : ∀ k, (holding { State.reset with
      types := Vector.replicate 16 (some { code := 8, matrix := defaultMatrix }) } .cl0
      (.setType 7 defaultMatrix)).typeEntry k = some { code := 8, matrix := defaultMatrix } := fun k => by
    simp [holding, State.typeEntry]
  have hn : ∀ k, (holding State.reset .cl0 (.setType 7 defaultMatrix)).typeEntry k = none := fun k => by
    simp [holding, State.typeEntry, State.reset]
  refine ⟨⟨holding_inHand rfl (by decide +kernel), by decide, fun j d h => ?_, hn 0⟩,
    ⟨holding_inHand rfl (by decide +kernel), fun k e h => ?_, fun k => ?_⟩, ?_⟩
  · rw [hn] at h; cases h
  · rw [hf] at h; injection h with h; subst h; decide
  · rw [hf]; rfl
  · rw [hf]; rfl

theorem witness_ForgetFreesMissingSlots :
    ∀ online,
      let s := holding (bound State.reset 191 (head 1 32 online)) .cl0 (.forget (.range 191 1))
      s.InHand .cl0 (frameOf (.forget (.range 191 1))) (.forget (.range 191 1)) ∧
        (SlotSet.range 191 1).slots = some [191] ∧ Link.cl0 = s.pair.activeLink ∧
        (s.slot 191).state = (if online then .online else .missing) := by
  intro online
  refine ⟨holding_inHand rfl (by decide +kernel), by decide +kernel, rfl, ?_⟩
  cases online <;> decide +kernel

theorem witness_SlotAndClaimsAreReported :
    (∃ s : State, s.InHand .cl1 (frameOf (.readSlot (191 : SlotNo).val)) (.readSlot (191 : SlotNo).val)) ∧
      ∃ s : State, s.InHand .cl1 (frameOf (.readClaims (191 : SlotNo).val .aim)) (.readClaims (191 : SlotNo).val .aim) := by
  refine ⟨⟨_, inHand_reset _ _ ?_⟩, ⟨_, inHand_reset _ _ ?_⟩⟩ <;> decide +kernel

/-- A SHADOW claim of CL1 stands before a LIVE one of CL3 in R57's order, and after it in the report. -/
theorem witness_SlotAndClaimsAreReported_owner :
    let s := withClaims State.reset
      [{ restClaim 0 .cl1 191 .level [1] with role := .shadow }, restClaim 1 .cl3 191 .level [2]] []
    (s.owner 191 .level).map (·.number) = some 1 ∧ (s.stack 191 .level).map (·.number) = [0, 1] ∧
      (s.reportedStack 191 .level).map (·.number) = [1, 0] := by
  decide +kernel

/-- A record that still runs, and one that is spent; a claim at rest, and one that runs a step. -/
theorem witness_SlotAndClaimsAreReported_values :
    let fade : Crossfade := { fromValue := [0], start := { reading := 0, old := false }, duration := 5 }
    let s := (at_ 4).setFade 191 .level (some fade)
    ((s.slot 191).fades.get .level = some fade ∧ ¬fade.duration ≤ fade.start.age s.now ∧
        fade.duration ≤ fade.start.age (at_ 5).now) ∧
      (restClaim 0 .cl0 191 .level [1]).running = none ∧
      (waitingClaim []).running = some (running (plainStep 0 [65535]) [0]) ∧ (at_ 5).ValuesSound :=
  ⟨by decide +kernel, rfl, rfl, values_idle (fun n => by rw [show (at_ 5).slot n = Slot.reset from reset_slot n]; exact ⟨rfl, rfl⟩)
    rfl (by decide) rfl⟩

theorem witness_LineTypeAndPartAreReported :
    (∃ s : State, s.InHand .cl1 (frameOf (.readLine 5)) (.readLine 5)) ∧
      (∃ s : State, s.InHand .cl1 (frameOf (.readType 15)) (.readType 15)) ∧
      ∃ s : State, s.InHand .cl1 (frameOf .readPart) .readPart := by
  refine ⟨⟨_, inHand_reset _ _ ?_⟩, ⟨_, inHand_reset _ _ ?_⟩, ⟨_, inHand_reset _ _ ?_⟩⟩ <;> decide +kernel

/-! ### The Line Sequencers -/

/-- Line 0 as given, and a head bound to slot 191. -/
def oneHead (r : LineRec) (f : Fixture) : State := bound (State.reset.setLine 0 r) 191 f

theorem oneHead_fixture {r : LineRec} {f h : Fixture} {m : SlotNo} (e : ((oneHead r f).slot m).fixture = some h) :
    m = 191 ∧ h = f := by
  unfold oneHead bound at e
  rw [State.setSlot_slot] at e
  split at e
  · injection e with e; exact ⟨‹_›, e.symm⟩
  · rw [State.setLine_slot, reset_slot] at e; cases e

theorem oneHead_line (r : LineRec) (f : Fixture) : (oneHead r f).line 0 = r := by simp [oneHead, bound]

/-- A line that has rested to the very microsecond. -/
def readyLine : LineRec := { idleLine with restedAt := 1000 }

theorem readyLine_sound : readyLine.Sound := by
  constructor <;> simp [readyLine, idleLine, LineRec.reset, EnrolRecord.atRest]

theorem not_longerAgo (a : Option Stamp) (now : Reading) : ¬LongerAgo a a now := by
  cases a with
  | none => exact id
  | some x => rintro ⟨h, h' | h'⟩ <;> simp [h] at h'

theorem oneHead_served {f : Fixture} {k : SlotClass} (hl : f.line = 0) (hm : InClass (oneHead readyLine f) 191 f k)
    (hn : ∀ j ∈ classesBefore k, ¬InClass (oneHead readyLine f) 191 f j) :
    IsServed (oneHead readyLine f) 0 k 191 f := by
  refine ⟨by simp [oneHead, bound], hl, hm, fun j hj m h e _ => ?_, fun m h e _ _ => ?_⟩
  · obtain ⟨rfl, rfl⟩ := oneHead_fixture e; exact hn j hj
  · obtain ⟨rfl, rfl⟩ := oneHead_fixture e; exact ⟨not_longerAgo _ _, fun h => absurd h (lt_irrefl _)⟩

theorem oneHead_values (r : LineRec) (f : Fixture) : (oneHead r f).ValuesSound :=
  values_idle (fun n => by
    unfold oneHead bound
    rw [State.setSlot_slot]
    split <;> simp [State.setLine_slot, reset_slot]) rfl (show State.reset.pair.failoverFade ≤ 600000 by decide) rfl

theorem oneHead_lines {r : LineRec} (h : r.Sound) (f : Fixture) : (oneHead r f).LinesSound :=
  lines_one (by simp [oneHead, bound]) h

/-- A head never sent to is OVERDUE; a MISSING head never polled is in RECOVER. -/
theorem witness_SchedulerServesTheMostPressing_picks :
    (∀ online, (oneHead readyLine (head 1 9 online)).LinesSound ∧ (oneHead readyLine (head 1 9 online)).ValuesSound ∧
        CanPick (oneHead readyLine (head 1 9 online)) 0) ∧
      IsServed (oneHead readyLine (head 1 9 true)) 0 .overdue 191 (head 1 9 true) ∧
      IsServed (oneHead readyLine (head 1 9 false)) 0 .recover 191 (head 1 9 false) := by
  refine ⟨fun b => ⟨oneHead_lines readyLine_sound _, oneHead_values _ _, rfl, ?_⟩, oneHead_served rfl ?_ ?_,
    oneHead_served rfl ?_ ?_⟩
  · rw [oneHead_line]; exact ⟨rfl, (le_rfl : 1000 ≤ 1000), rfl⟩
  · exact ⟨rfl, by simp [AtLeastAgo, head]⟩
  · simp [classesBefore, InClass, oneHead, bound, Slot.reset, State.setLine_slot, reset_slot]
  · exact ⟨rfl, by simp [AtLeastAgo, head]⟩
  · simp [classesBefore, InClass, head]

/-- With no slot bound, the line calls, or has its joining suspended, or has called within its period; two lines that
cannot pick. -/
theorem witness_SchedulerServesTheMostPressing_none :
    let called : Stamp := { reading := 0, old := false }
    let s := State.reset.setLine 0 readyLine
    (s.LinesSound ∧ s.ValuesSound ∧ CanPick s 0 ∧
        (∀ k m h, (s.slot m).fixture = some h → h.line = 0 → ¬InClass s m h k) ∧
        (s.line 0).joinSuspended = false ∧ AtLeastAgo (s.line 0).lastCall (s.line 0).joinPeriod s.now) ∧
      ({ readyLine with joinSuspended := true }.joinSuspended ≠ false ∧
        ¬AtLeastAgo (some called) readyLine.joinPeriod s.now) ∧
      State.reset.inReset = false ∧ ¬CanPick State.reset 0 ∧
      ¬CanPick (State.reset.setLine 0 { idleLine with restedAt := 1001 }) 0 := by
  refine ⟨⟨lines_one rfl readyLine_sound, values_idle (fun n => ?_) rfl (by decide) rfl, by unfold CanPick; decide +kernel,
      fun k m h e => ?_, by decide +kernel, ?_⟩, ⟨by decide, fun h => ?_⟩, rfl, by unfold CanPick; decide +kernel,
    by unfold CanPick; decide +kernel⟩
  · rw [State.setLine_slot, reset_slot]; exact ⟨rfl, rfl⟩
  · rw [State.setLine_slot, reset_slot] at e; cases e
  · rw [State.setLine_line_self]; intro x h; cases h
  · exact absurd (h _ rfl) (by decide +kernel)

/-- In CLEAR and in a hold. -/
theorem witness_SetFrameCarriesTheInstant :
    let s := oneHead readyLine (head 1 9 true)
    s.LinesSound ∧ s.ValuesSound ∧ CanPick s 0 ∧ IsServed s 0 .overdue 191 (head 1 9 true) ∧
      SlotClass.overdue ≠ .recover ∧ s.safety = .clear ∧ CanPick { s with safety := .holding } 0 := by
  obtain ⟨h, h2, -⟩ := witness_SchedulerServesTheMostPressing_picks
  exact ⟨(h true).1, (h true).2.1, (h true).2.2, h2, by decide, by decide +kernel, (h true).2.2⟩

/-- Line 0 with an exchange in its phase, ending now. -/
def lineIn (e : EnrolRecord) (x : Exchange) : State := State.reset.setLine 0 (busyLine .enrolling e x)

theorem lineIn_exchange (e : EnrolRecord) (x : Exchange) : ((lineIn e x).line 0).exchange = some x := by
  simp [lineIn, busyLine]

theorem witness_LineFramesGoOut_begins :
    let r := State.reset.line 0
    let dropping := { EnrolRecord.start .full .dropping with giveUp := some { address := 63, condition := .tableFull } }
    State.reset.inReset = false ∧ r.seq = .enrolling ∧ r.exchange = none ∧ r.restedAt ≤ State.reset.micros ∧
      (r.enrol.giveUp = none ∧ r.enrol.subState = some .dropping) ∧
      dropping.giveUp = some { address := 63, condition := .tableFull } ∧
      ((EnrolRecord.start .join .calling).giveUp = none ∧ (EnrolRecord.start .join .calling).subState = some .calling) ∧
      ((offering 5 1 1).giveUp = none ∧ (offering 5 1 1).subState = some .assigning ∧
        (offering 5 1 1).captured = some 5 ∧ (offering 5 1 1).offered = some 1) := by
  rw [reset_line]; decide

theorem witness_LineFramesGoOut_waits :
    ((State.reset.setLine 0 idleLine).line 0).seq ≠ .enrolling ∧
      ((lineIn (EnrolRecord.start .full .calling) (exchangeOf .call .frame 1001)).line 0).exchange ≠ none ∧
      ((State.reset.setLine 0 { LineRec.reset with restedAt := 1001 }).micros <
        ((State.reset.setLine 0 { LineRec.reset with restedAt := 1001 }).line 0).restedAt) ∧
      (lineIn (EnrolRecord.start .full .calling) (exchangeOf .call .frame 1001)).micros <
        (exchangeOf .call .frame 1001).ends := by
  decide +kernel

theorem witness_LineFramesGoOut_ends :
    let set := exchangeOf (.set 3 9 1 2 [3, 4, 5]) .frame 1000
    let call := exchangeOf .call .frame 1000
    let assign := exchangeOf (.assign 5 1) .frame 1000
    (((State.reset.setLine 0 (busyLine .sending (EnrolRecord.atRest 0) set)).line 0).exchange = some set ∧
        set.frame.slotAddress = some 9 ∧ set.phase = .frame ∧ set.ends ≤ State.reset.micros) ∧
      (((lineIn (EnrolRecord.start .full .calling) call).line 0).exchange = some call ∧ call.frame = .call ∧
        call.phase = .frame) ∧
      (((lineIn (offering 5 1 1) assign).line 0).exchange = some assign ∧ assign.frame = .assign 5 1 ∧
        assign.phase = .frame) ∧
      (State.reset.line 0).exchange = none ∧
      ((lineIn (offering 5 1 1) assign).line 0).exchange.isSome = true := by
  decide +kernel

/-- The ACK of an address with no condition, its characters all broken. -/
def brokenAck (b : Nat) : List RxChar := (ackOf b 0 1 2).map (fun c => { c with stopOk := false })

/-- Neither the good ACK of an address nor a checked ACK of another. -/
def NoAck (a : Nat) (reply : List RxChar) : Prop := ¬WrongAck a reply ∧ ∀ c p q, reply.take 8 ≠ ackOf a c p q

theorem brokenAck_wrong {a b : Nat} (h : b < 256) (hb : b ≠ a) : WrongAck a (brokenAck b) :=
  ⟨b, 0, 1, 2, h, hb, rfl⟩

theorem noAck_short {a : Nat} : NoAck a [] :=
  ⟨fun ⟨b, c, p, q, _, _, h⟩ => by simp [lineBytes, bytes16] at h,
    fun c p q h => by simp [ackOf, asCharacters, lineBytes, bytes16] at h⟩

theorem brokenAck_none {a : Nat} (ha : a < 256) : NoAck a (brokenAck a) :=
  ⟨fun ⟨b, c, p, q, hb, hn, h⟩ => by
    have := congrArg (fun l => l.map BitVec.toNat) h
    simp [brokenAck, ackOf, asCharacters, lineBytes, bytes16] at this
    omega,
    fun c p q h => by simp [brokenAck, ackOf, asCharacters, lineBytes, bytes16] at h⟩

/-- A head with two misses, whose SET exchange ends its window now. -/
theorem witness_SetRepliesAreCounted :
    let f := { head 1 9 true with misses := 2 }
    let x := exchangeOf (.set 191 9 1 2 [3, 4, 5]) .window 1000
    let s := oneHead (busyLine .awaiting (EnrolRecord.atRest 0) x) f
    (s.inReset = false ∧ (s.line 0).disablePending = false ∧ (s.line 0).exchange = some x ∧ x.phase = .window ∧
        x.frame = .set 191 9 1 2 [3, 4, 5] ∧ (s.slot 191).fixture = some f ∧ f.line = 0 ∧ f.online = true ∧ 9 < 64) ∧
      (s.micros ≤ x.ends ∧ x.ends ≤ s.micros ∧ (65535 : Nat) ≤ 65535 ∧ 255 < 256 ∧ 255 ≠ 9) ∧
      ((∀ c p q, (ackOf 9 c p q ++ ackOf 9 c p q).take 8 = ackOf 9 c p q) ∧ WrongAck 9 (brokenAck 255) ∧
        WrongAck 9 (ackOf 255 0 1 2) ∧ NoAck 9 [] ∧ NoAck 9 (brokenAck 9)) ∧
      x.ends < { s with micros := 1001 }.micros ∧ { s with micros := 999 }.micros < x.ends := by
  exact ⟨by decide +kernel, by decide +kernel,
    ⟨fun _ _ _ => rfl, brokenAck_wrong (by decide) (by decide), ⟨255, 0, 1, 2, by decide, by decide, by decide +kernel⟩, noAck_short,
      brokenAck_none (by decide)⟩, by decide +kernel, by decide +kernel⟩

/-- A POLL that ends its window now, on a slot still MISSING and on one that has been freed. -/
theorem witness_PollRepliesReturnFixtures :
    let f := head 1 9 false
    let x := exchangeOf (.poll 191 9) .window 1000
    let r := busyLine .awaiting (EnrolRecord.atRest 0) x
    let s := oneHead r f
    (s.inReset = false ∧ (s.line 0).disablePending = false ∧ (s.line 0).exchange = some x ∧ x.phase = .window ∧
        x.frame = .poll 191 9 ∧ 9 < 64 ∧ s.micros ≤ x.ends ∧ x.ends ≤ s.micros ∧ (s.slot 191).fixture = some f ∧
        f.line = 0 ∧ f.online = false) ∧
      ((State.reset.setLine 0 r).line 0).exchange = some x ∧
      (∀ f, ((State.reset.setLine 0 r).slot 191).fixture = some f → f.line ≠ 0 ∨ f.online = true) ∧
      (WrongAck 9 (brokenAck 255) ∧ NoAck 9 [] ∧ NoAck 9 (brokenAck 9)) ∧
      x.ends < { s with micros := 1001 }.micros ∧ { s with micros := 999 }.micros < x.ends := by
  refine ⟨by decide +kernel, by decide +kernel, fun f h => ?_,
    ⟨brokenAck_wrong (by decide) (by decide), noAck_short, brokenAck_none (by decide)⟩, by decide +kernel,
    by decide +kernel⟩
  rw [State.setLine_slot, reset_slot] at h; cases h

/-! ### Enrolment -/

theorem witness_DropsEndTheirExchange :
    let x := exchangeOf (.drop 0) .frame 1000
    let e := EnrolRecord.start .full .dropping
    let g := { e with giveUp := some { address := 63, condition := .tableFull } }
    ((lineIn e x).inReset = false ∧ ((lineIn e x).line 0).exchange = some x ∧ x.frame = .drop 0 ∧ x.phase = .frame ∧
        ((lineIn e x).line 0).disablePending = false ∧ x.ends ≤ (lineIn e x).micros ∧
        ((lineIn e x).line 0).enrol.giveUp = none ∧ ((lineIn e x).line 0).enrol.operation ≠ .none) ∧
      ((lineIn g x).line 0).enrol.giveUp = some { address := 63, condition := .tableFull } ∧
      { lineIn e x with micros := 999 }.micros < x.ends := by
  decide +kernel

/-- The record of an operation in ARBITRATING. -/
def listening : EnrolRecord := EnrolRecord.start .full .arbitrating

theorem witness_ArbitrationCapturesAnId :
    let x := exchangeOf .call .arbitration 1000
    let s := bound (lineIn listening x) 191 (head 8 1 true)
    s.TableSound ∧ s.inReset = false ∧ (s.line 0).disablePending = false ∧ (s.line 0).exchange = some x ∧
      x.frame = .call ∧ x.phase = .arbitration ∧ x.ends ≤ s.micros ∧ (5 : BitVec 40) ≠ BitVec.allOnes 40 ∧
      (∀ n f, (s.slot n).fixture = some f → f.line = 0 → f.address = 2 → f.uniqueId = 5) ∧
      (∀ b, 1 ≤ b → b < 2 →
        ∃ n f, (s.slot n).fixture = some f ∧ f.line = 0 ∧ f.address = b ∧ f.uniqueId ≠ 5) ∧
      { s with micros := 999 }.micros < x.ends := by
  have hs : ∀ n f, ((bound (lineIn listening (exchangeOf .call .arbitration 1000)) 191 (head 8 1 true)).slot n).fixture =
      some f → n = 191 ∧ f = head 8 1 true := fun n f h => by
    unfold bound at h
    rw [State.setSlot_slot] at h
    split at h
    · injection h with h; exact ⟨‹_›, h.symm⟩
    · rw [lineIn, State.setLine_slot, reset_slot] at h; cases h
  refine ⟨⟨fun n f h => ?_, fun n m f g h h' _ => ?_, fun n m f g h h' _ _ => ?_⟩, rfl, by decide +kernel, by decide +kernel,
    rfl, rfl, by decide +kernel, by decide, fun n f h _ h2 => ?_, fun b h1 h2 => ?_, by decide +kernel⟩
  · obtain ⟨-, rfl⟩ := hs n f h; constructor <;> simp [head]
  · rw [(hs n f h).1, (hs m g h').1]
  · rw [(hs n f h).1, (hs m g h').1]
  · obtain ⟨-, rfl⟩ := hs n f h; exact absurd h2 (by decide)
  · have : b = 1 := by omega
    subst this
    exact ⟨191, head 8 1 true, by simp [bound], rfl, rfl, by decide⟩

/-- 32 heads on line 0, at the addresses 1 to 32. -/
def crowdedLine (x : Exchange) : State :=
  { lineIn listening x with
    slots := Vector.ofFn fun n : Fin 192 =>
      if n.val < 32 then { Slot.reset with fixture := some (head (BitVec.ofNat 40 n.val) (n.val + 1) true) }
      else Slot.reset }

theorem crowdedLine_slot (x : Exchange) (n : SlotNo) :
    (crowdedLine x).slot n =
      if n.val < 32 then { Slot.reset with fixture := some (head (BitVec.ofNat 40 n.val) (n.val + 1) true) }
      else Slot.reset := by
  simp [crowdedLine, State.slot]

/-- With no address of the line free, the fixture is to be given up. -/
theorem witness_ArbitrationCapturesAnId_full_line :
    let s := crowdedLine (exchangeOf .call .arbitration 1000)
    s.TableSound ∧ s.inReset = false ∧
      ∀ b, 1 ≤ b → b ≤ 32 →
        ∃ n f, (s.slot n).fixture = some f ∧ f.line = 0 ∧ f.address = b ∧ f.uniqueId ≠ (77 : BitVec 40) := by
  have hs : ∀ n f, ((crowdedLine (exchangeOf .call .arbitration 1000)).slot n).fixture = some f →
      n.val < 32 ∧ f = head (BitVec.ofNat 40 n.val) (n.val + 1) true := fun n f h => by
    rw [crowdedLine_slot] at h
    split at h
    · injection h with h; exact ⟨‹_›, h.symm⟩
    · cases h
  refine ⟨⟨fun n f h => ?_, fun n m f g h h' e => ?_, fun n m f g h h' _ e => ?_⟩, rfl, fun b h1 h2 => ?_⟩
  · obtain ⟨hn, rfl⟩ := hs n f h
    constructor <;> simp [head]; omega
  · obtain ⟨hn, rfl⟩ := hs n f h
    obtain ⟨hm, rfl⟩ := hs m g h'
    have := congrArg BitVec.toNat e
    simp [head] at this
    exact Fin.ext (by omega)
  · obtain ⟨hn, rfl⟩ := hs n f h
    obtain ⟨hm, rfl⟩ := hs m g h'
    simp [head] at e
    exact Fin.ext (by omega)
  · have hv : b - 1 < 192 := by omega
    refine ⟨⟨b - 1, hv⟩, head (BitVec.ofNat 40 (b - 1)) (b - 1 + 1) true, ?_, rfl, ?_, ?_⟩
    · rw [crowdedLine_slot, if_pos (by show b - 1 < 32; omega)]
    · show b - 1 + 1 = b; omega
    · intro h
      have := congrArg BitVec.toNat h
      simp [head] at this
      omega

/-- A line whose ASSIGN awaits its CAPS. -/
def assigningLine (attempt ends : Nat) : LineRec :=
  busyLine .enrolling (offering 5 2 attempt) (exchangeOf (.assign 5 2) .window ends)

theorem assigningLine_sound (k e : Nat) : (assigningLine k e).Sound := by
  constructor <;>
    simp [assigningLine, busyLine, LineRec.reset, offering, EnrolRecord.start, EnrolRecord.atRest, exchangeOf,
      LineFrame.slotAddress]
  · rintro x u a rfl; simp
  · rintro x a rfl; simp

theorem assigning_lines (k : Nat) {s : State} (h : s.lines = (State.reset.setLine 0 (assigningLine k 1000)).lines) :
    s.LinesSound :=
  lines_one h (assigningLine_sound k 1000)

theorem oneHead_table {r : LineRec} {f : Fixture} (h : f.InRange) : (oneHead r f).TableSound := by
  refine ⟨fun n g e => ?_, fun n m g g' e e' _ => ?_, fun n m g g' e e' _ _ => ?_⟩
  · obtain ⟨-, rfl⟩ := oneHead_fixture e; exact h
  · rw [(oneHead_fixture e).1, (oneHead_fixture e').1]
  · rw [(oneHead_fixture e).1, (oneHead_fixture e').1]

theorem head_inRange (u : BitVec 40) {a : Nat} (h : 1 ≤ a ∧ a ≤ 32) (b : Bool) : (head u a b).InRange := by
  constructor <;> simp [head, h]

/-- An address is offered on line 0 alone, and no other head has it. -/
theorem oneHead_offers (k e a : Nat) (u : BitVec 40) (b : Bool) (h : a = 2 → u = 5) :
    (oneHead (assigningLine k e) (head u a b)).OffersSound := by
  intro ln x c h1 h2 n f hf hl ha
  obtain ⟨-, rfl⟩ := oneHead_fixture hf
  have hl : ln = 0 := hl.symm
  subst hl
  have e1 : (oneHead (assigningLine k e) (head u a b)).line 0 = assigningLine k e := oneHead_line _ _
  rw [e1] at h1 h2
  simp only [assigningLine, busyLine, offering, Option.some.injEq] at h1 h2
  have h3 : a = c := ha
  rw [← h1]; exact h (by rw [h3, ← h2])

/-- A good CAPS of address 2. -/
def goodCaps : List RxChar := asCharacters (lineBytes 2 6#8 [0, 0, 1, 0, 2, 0, 7, 3, 1, 0, 20, 0, 30])

/-- What it declares. -/
def someCaps : Caps :=
  { conditions := ConditionSet.empty, pan := 1, tilt := 2, typeCode := 7, emitters := 3, maxRate := .r500, panSpeed := 20
    tiltSpeed := 30 }

theorem goodCaps_good : GoodCaps 2 goodCaps someCaps :=
  ⟨0, 1, by decide +kernel, by decide, by decide, by decide, by decide, by decide, by decide, by decide, by decide,
    by decide, .inr (.inl ⟨rfl, rfl⟩)⟩

theorem no_caps (a : Nat) (caps : Caps) : ¬GoodCaps a [] caps := by
  rintro ⟨c, k, h, -⟩
  have := congrArg List.length h
  simp [lineBytes, bytes16] at this

/-- The ID returns to its MISSING slot, or is new. -/
theorem witness_GoodCapsBindTheFixture :
    let x := exchangeOf (.assign 5 2) .window 1000
    let s := oneHead (assigningLine 1 1000) (head 5 1 false)
    let u := State.reset.setLine 0 (assigningLine 1 1000)
    (s.LinesSound ∧ s.TableSound ∧ s.OffersSound ∧ s.inReset = false ∧ (s.line 0).disablePending = false ∧
        (s.line 0).exchange = some x ∧ x.frame = .assign 5 2 ∧ x.phase = .window ∧ s.micros ≤ x.ends ∧
        GoodCaps 2 goodCaps someCaps ∧
        x.ends < { s with micros := 1001 }.micros ∧
        ∃ f, (s.slot 191).fixture = some f ∧ f.uniqueId = 5 ∧ f.online = false) ∧
      (u.LinesSound ∧ u.TableSound ∧ u.OffersSound ∧ (u.line 0).exchange = some x ∧
        (∀ m f, (u.slot m).fixture = some f → f.uniqueId ≠ 5) ∧ (u.slot 0).fixture = none ∧
        ∀ m, m < 0 → (u.slot m).fixture.isSome = true) := by
  have hu : ∀ n, ((State.reset.setLine 0 (assigningLine 1 1000)).slot n).fixture = none := fun n => by
    rw [State.setLine_slot, reset_slot]; rfl
  refine ⟨⟨assigning_lines 1 rfl, oneHead_table (head_inRange 5 (by decide) false),
    oneHead_offers 1 1000 1 5 false (fun h => by cases h), rfl, by decide +kernel, by decide +kernel, rfl, rfl,
    by decide +kernel, goodCaps_good, by decide +kernel, head 5 1 false, by simp [oneHead, bound], rfl, rfl⟩,
    assigning_lines 1 rfl, (table_free hu).1, (table_free hu).2, by decide +kernel,
    fun m f h => ?_, hu 0, fun m h => by simp at h⟩
  rw [hu] at h; cases h

/-- The ID is held ONLINE; then no slot is FREE and no slot holds it; then the two failures. -/
theorem witness_RefusedAndFailedCapsChangeNoSlot :
    let x := exchangeOf (.assign 5 2) .window 1000
    (∀ k, (oneHead (assigningLine k 1000) (head 5 1 true)).LinesSound ∧
        (oneHead (assigningLine k 1000) (head 5 1 true)).TableSound ∧
        ((oneHead (assigningLine k 1000) (head 5 1 true)).line 0).exchange = some x ∧
        ((oneHead (assigningLine k 1000) (head 5 1 true)).line 0).disablePending = false ∧
        ((oneHead (assigningLine k 1000) (head 5 1 true)).line 0).enrol.attempt = some k ∧
        ∃ n f, ((oneHead (assigningLine k 1000) (head 5 1 true)).slot n).fixture = some f ∧ f.uniqueId = 5 ∧
          f.online = true) ∧
      x.frame = .assign 5 2 ∧ x.phase = .window ∧ GoodCaps 2 goodCaps someCaps ∧
      (∀ caps, ¬GoodCaps 2 [] caps) ∧ State.reset.micros ≤ x.ends ∧ x.ends ≤ State.reset.micros ∧
      { State.reset with micros := 999 }.micros < x.ends ∧ x.ends < { State.reset with micros := 1001 }.micros := by
  refine ⟨fun k => ⟨assigning_lines k rfl, oneHead_table (head_inRange 5 (by decide) true), ?_, ?_,
      ?_, 191, head 5 1 true, by simp [oneHead, bound], rfl, rfl⟩,
    rfl, rfl, goodCaps_good, no_caps 2, by decide, by decide, by decide, by decide⟩
  · rw [oneHead_line]; rfl
  · rw [oneHead_line]; rfl
  · rw [oneHead_line]; rfl

/-- The head of slot n in a full table. -/
def fullHead (n : SlotNo) : Fixture :=
  { head (BitVec.ofNat 40 (n.val + 100)) (n.val % 32 + 1) true with
    line := ⟨n.val / 32 % 6, Nat.mod_lt _ (by decide)⟩ }

/-- Every slot is bound, 32 to each line, and no slot holds the ID. -/
def fullTable : State :=
  { State.reset.setLine 0 (assigningLine 1 1000) with
    slots := Vector.ofFn fun n : Fin 192 =>
      { Slot.reset with fixture := some (fullHead n) } }

theorem fullTable_fixture (n : SlotNo) :
    (fullTable.slot n).fixture = some (fullHead n) := by
  simp [fullTable, State.slot]

theorem witness_RefusedAndFailedCapsChangeNoSlot_full_table :
    fullTable.LinesSound ∧ fullTable.TableSound ∧ fullTable.inReset = false ∧
      (fullTable.line 0).exchange = some (exchangeOf (.assign 5 2) .window 1000) ∧
      (∀ n f, (fullTable.slot n).fixture = some f → f.uniqueId ≠ 5) ∧
      ∀ n, (fullTable.slot n).fixture.isSome = true := by
  refine ⟨assigning_lines 1 rfl, ⟨fun n f h => ?_, fun n m f g h h' e => ?_, fun n m f g h h' e e' => ?_⟩,
    rfl, ?_, fun n f h => ?_, fun n => by rw [fullTable_fixture]; rfl⟩
  · rw [fullTable_fixture] at h; injection h with h; subst h
    constructor <;> simp [head, fullHead]; omega
  · rw [fullTable_fixture] at h h'; injection h with h; injection h' with h'; subst h; subst h'
    have := congrArg BitVec.toNat e
    simp [head, fullHead] at this
    have h1 := n.isLt; have h2 := m.isLt
    exact Fin.ext (by omega)
  · rw [fullTable_fixture] at h h'; injection h with h; injection h' with h'; subst h; subst h'
    simp [head, fullHead] at e e'
    have h1 := n.isLt; have h2 := m.isLt
    exact Fin.ext (by omega)
  · decide +kernel
  · rw [fullTable_fixture] at h; injection h with h; subst h
    intro e
    have := congrArg BitVec.toNat e
    have h1 := n.isLt
    simp [head, fullHead] at this
    omega

/-- A line with a disable pending. -/
def stopping (r : LineRec) : LineRec := { r with enabled := false, disablePending := true }

theorem stopping_lines {r : LineRec} (hr : r.Sound) (hx : r.exchange.isSome = true) (ho : r.seq ≠ .off) :
    (State.reset.setLine 0 (stopping r)).LinesSound :=
  lines_one rfl
    { hr with
      off_iff := ⟨fun h => absurd h ho, fun h => by cases h.2⟩
      pending_waits := fun _ => ⟨rfl, hx⟩ }

/-- The exchange of each kind in flight, at the very microsecond of its end. -/
theorem witness_PendingDisableTakesEffect :
    let slotLine (frame : LineFrame) := busyLine .awaiting (EnrolRecord.atRest 0) (exchangeOf frame .window 1000)
    ∀ r, r = slotLine (.set 3 9 1 2 [3, 4, 5]) ∨ r = slotLine (.poll 3 9) ∨
        r = busyLine .enrolling (EnrolRecord.start .full .dropping) (exchangeOf (.drop 0) .frame 1000) ∨
        r = busyLine .enrolling listening (exchangeOf .call .arbitration 1000) ∨ r = assigningLine 1 1000 →
      let s := State.reset.setLine 0 (stopping r)
      s.LinesSound ∧ s.inReset = false ∧ (s.line 0).disablePending = true ∧ (s.line 0).exchange = r.exchange ∧
        r.exchange.map (·.ends) = some s.micros := by
  intro slotLine r h
  have hs : r.Sound := by
    rcases h with rfl | rfl | rfl | rfl | rfl
    all_goals first
      | exact assigningLine_sound 1 1000
      | (constructor <;> simp [slotLine, busyLine, LineRec.reset, EnrolRecord.atRest, EnrolRecord.start, listening,
          exchangeOf, LineFrame.slotAddress] <;> (try rintro x u a rfl; simp) <;> (try rintro x a rfl; simp))
  have hx : r.exchange.isSome = true ∧ r.seq ≠ .off ∧ r.exchange.map (·.ends) = some 1000 := by
    rcases h with rfl | rfl | rfl | rfl | rfl <;> decide
  exact ⟨stopping_lines hs hx.1 hx.2.1, rfl, by rw [State.setLine_line_self]; rfl, by rw [State.setLine_line_self]; rfl,
    hx.2.2⟩

/-- One stamp of each sort, at 2^31 ms. -/
theorem witness_StampsBecomeOld :
    let a : Stamp := { reading := 0, old := false }
    let fade : Crossfade := { fromValue := [0], start := a, duration := 600000 }
    let f := { head 1 9 false with
               pollTime := some a, lastSent := some { pan := 0, tilt := 0, levels := [], time := a } }
    let s := (bound ((at_ 2147483648).setLine 0 { LineRec.reset with lastCall := some a }) 191 f).setFade 191 .level
      (some fade)
    s.inReset = false ∧ s.fade 191 .level = some fade ∧ (s.slot 191).fixture = some f ∧
      f.lastSent = some { pan := 0, tilt := 0, levels := [], time := a } ∧ f.pollTime = some a ∧
      (s.line 0).lastCall = some a ∧ elapsed a.reading s.now = 2147483648 ∧
      ({ reading := 0, old := true } : Stamp).old = true := by
  decide +kernel

/-! ### What every step keeps -/

theorem link_sound_at (s : State) (h : s.links = State.reset.links) : s.LinksSound := by
  intro l
  have : s.link l = State.reset.link l := by unfold State.link; rw [h]
  rw [this]
  cases l <;> constructor <;> simp [State.reset, State.link, Link.index, LinkRec.reset]

theorem witness_LinksStaySound : ∃ t, (at_ 5).LinksSound ∧ (at_ 5).LossFadesSound ∧ step (at_ 5) = .next t :=
  ⟨_, link_sound_at _ rfl, ⟨rfl, rfl⟩, rfl⟩

theorem witness_LinesStaySound : ∃ t, (State.reset.setLine 0 awaitingLine).LinesSound ∧
    step (State.reset.setLine 0 awaitingLine) = .next t :=
  ⟨_, lines_one rfl awaitingLine_sound, rfl⟩

/-- A line whose operation has bound the one head of the table. -/
theorem witness_TableStaysSound :
    let s := oneHead { assigningLine 1 1000 with enrol := { offering 5 2 1 with bound := 1 } } (head 8 1 true)
    ∃ t, s.LinesSound ∧ s.TableSound ∧ s.OffersSound ∧ s.BoundsSound ∧ step s = .next t := by
  intro s
  have hl : ∀ ln, ln ≠ 0 → s.line ln = LineRec.reset := fun ln h => by
    simp [s, oneHead, bound, State.setLine_line, h, reset_line]
  have h0 : s.line 0 = { assigningLine 1 1000 with enrol := { offering 5 2 1 with bound := 1 } } := oneHead_line _ _
  have hr : { assigningLine 1 1000 with enrol := { offering 5 2 1 with bound := 1 } }.Sound :=
    { assigningLine_sound 1 1000 with at_rest := fun h => by cases h }
  refine ⟨_, oneHead_lines hr _, oneHead_table (head_inRange 8 (by decide) true),
    fun ln x a h1 h2 n f hf e ha => ?_, fun ln => ?_, rfl⟩
  · obtain ⟨-, rfl⟩ := oneHead_fixture hf
    have e : ln = 0 := e.symm
    subst e
    rw [h0] at h2
    have : a = 2 := (Option.some.inj h2).symm
    subst this
    cases ha
  · by_cases h : ln = 0
    · subst h
      refine ⟨by rw [h0]; decide, fun _ => ⟨by rw [h0]; decide +kernel, ?_, ?_⟩⟩
      · rw [h0]; intro h; cases h
      · rw [h0]; rintro x h; cases h; intro h; cases h
    · rw [hl ln h]
      exact ⟨by decide, fun _ => ⟨Nat.zero_le _, fun _ => rfl, fun _ _ _ => rfl⟩⟩

/-- A list of two entries, at reset and with the first 2^30 ms overdue. -/
theorem witness_PoolsStaySound :
    ∀ ms, ms = 0 ∨ ms = 1073742824 →
      ∃ t, (lined ms).PoolsSound ∧ (lined ms).RecordsSound ∧ (lined ms).ValuesSound ∧ (lined ms).ExpiriesNear ∧
        (lined ms).ExpiriesInOrder ∧ step (lined ms) = .next t := by
  intro ms h
  refine ⟨_, lined_pools (ms := ms) rfl rfl rfl, ?_, lined_values ms, ?_, ?_, rfl⟩
  · rcases h with rfl | rfl <;> (unfold State.RecordsSound; decide +kernel)
  · rcases h with rfl | rfl <;> (unfold State.ExpiriesNear; decide +kernel)
  · rcases h with rfl | rfl <;> (unfold State.ExpiriesInOrder; decide +kernel)

theorem witness_RolesRatesSafetyAndValuesStaySound :
    ∃ t, step (at_ 5) = .next t ∧ (at_ 5).RolesSound ∧ (at_ 5).RatesSound ∧ (at_ 5).SafetySound ∧
      (at_ 5).PoolsSound ∧ (at_ 5).ValuesSound := by
  have hsl : ∀ n, (at_ 5).slot n = Slot.reset := reset_slot
  have hln : ∀ ln, (at_ 5).line ln = LineRec.reset := reset_line
  refine ⟨_, rfl, roles_empty rfl, fun ln => ?_, by unfold State.SafetySound; decide,
    pools_empty rfl rfl, values_idle (fun n => by rw [hsl]; exact ⟨rfl, rfl⟩) rfl (by decide) rfl⟩
  rw [hln]
  refine ⟨by decide, fun n f h => ?_, .inl rfl⟩
  rw [hsl] at h; cases h

end Sys2Proof.Tests
end

section
/-! PROOF. What the operations of the part tell the links: each link has a run of notices and nothing else of it
changes (R8, R9). -/

namespace Sys2Proof.Machine

/-! ### Being told -/

/-- Every link `k` has had its own copies of the notices `ns k`, in their order, and is otherwise as it was (R8, R9). -/
def Told (s t : State) (ns : Link → List Notice) : Prop :=
  ∀ k, t.link k = (ns k).foldl LinkRec.receive (s.link k)

/-- Nothing has happened to any link but that it was told of something. -/
def LinksTold (s t : State) : Prop := ∃ ns, Told s t ns

theorem Told.linksTold {s t : State} {ns : Link → List Notice} (h : Told s t ns) : LinksTold s t := ⟨ns, h⟩

theorem Told.of_links {s t : State} (h : t.links = s.links) : Told s t (fun _ => []) := fun k => by
  simp [State.link, h]

theorem Told.trans {s t u : State} {ms ns : Link → List Notice} (h : Told s t ms) (g : Told t u ns) :
    Told s u (fun k => ms k ++ ns k) := fun k => by
  rw [g k, h k, List.foldl_append]

theorem Told.hears {s t : State} {ns : Link → List Notice} (h : Told s t ns) (k : Link) :
    Hears (s.link k) (t.link k) (ns k) := by
  rw [h k]; exact ⟨rfl, rfl⟩

theorem Told.hear {s t : State} {ns : Link → List Notice} (h : Told s t ns) : LinksHear s t := fun k => by
  rw [h k]; exact LinkRec.receive_foldl_frame _ _

theorem LinksTold.hear {s t : State} (h : LinksTold s t) : LinksHear s t := let ⟨_, h⟩ := h; h.hear

theorem LinksTold.of_links {s t : State} (h : t.links = s.links) : LinksTold s t := (Told.of_links h).linksTold

theorem LinksTold.refl (s : State) : LinksTold s s := .of_links rfl

theorem LinksTold.trans {s t u : State} (h : LinksTold s t) (g : LinksTold t u) : LinksTold s u :=
  let ⟨_, h⟩ := h; let ⟨_, g⟩ := g; (h.trans g).linksTold

/-- What is told after a change that leaves the links is told all the same. -/
theorem LinksTold.after {s t u : State} (h : LinksTold t u) (e : t.links = s.links) : LinksTold s u :=
  (LinksTold.of_links e).trans h

/-- What is told before a change that leaves the links is told all the same. -/
theorem LinksTold.before {s t u : State} (h : LinksTold s t) (e : u.links = t.links) : LinksTold s u :=
  h.trans (.of_links e)

theorem LinksTold.foldl {α : Type} {f : State → α → State} (h : ∀ s a, LinksTold s (f s a)) (l : List α) (s : State) :
    LinksTold s (l.foldl f s) := by
  induction l generalizing s with
  | nil => exact .refl s
  | cons a rest ih => exact (h s a).trans (ih (f s a))

theorem LinksTold.ite {s t u : State} {c : Prop} [Decidable c] (ht : LinksTold s t) (hu : LinksTold s u) :
    LinksTold s (if c then t else u) := by
  split <;> assumption

/-! ### Notices (R8) -/

theorem State.raiseTo_told (s : State) (l : Link) (n : Notice) :
    Told s (s.raiseTo l n) (fun k => if k = l then [n] else []) := fun k => by
  rw [State.raiseTo_link]
  by_cases h : k = l <;> simp [h]

theorem State.raiseEach_told (s : State) (ls : List Link) (n : Notice) : LinksTold s (s.raiseEach ls n) :=
  .foldl (fun s l => (s.raiseTo_told l n).linksTold) ls s

theorem State.raiseAll_told (s : State) (n : Notice) : Told s (s.raiseAll n) (fun _ => [n]) := fun k =>
  s.raiseAll_link n k

theorem State.raiseConditions_told (s : State) (n : SlotNo) (a b : ConditionSet) :
    Told s (s.raiseConditions n a b) (fun _ => conditionNotices n a b) := fun k => State.raiseAll_foldl_link s _ k

theorem State.putCondition_told (s : State) (ln : LineNo) (c : LineCondition) (b : Bool) :
    Told s (s.putCondition ln c b)
      (fun _ => if (s.line ln).conditions.has c = b then [] else [.lineCondition ln c b]) := fun k => by
  rw [State.putCondition_link]; split <;> rfl

/-- R71: CLAIM_DISPLACED tells the links and changes nothing else of them. -/
theorem State.raiseDisplaced_told (s : State) (l : Link) (g : Group) (lost : List (Link × SlotNo)) :
    LinksTold s (s.raiseDisplaced l g lost) :=
  .foldl (fun s k => .ite (.refl s) (s.raiseTo_told k _).linksTold) allLinks s

/-- R72: CLAIM_RESTORED tells the links and changes nothing else of them. -/
theorem State.raiseRestored_told (s : State) (cause : RestoreCause) (gains : List Gain) :
    LinksTold s (s.raiseRestored cause gains) :=
  .foldl (fun s k => .ite (.refl s) (s.raiseTo_told k _).linksTold) allLinks s

/-! ### Claims and steps -/

section
variable (s : State) (l : Link) (n : SlotNo) (g : Group) (v : Value) (k : Nat)
@[simp] theorem State.evaluated_links : (s.evaluated n g).links = s.links := rfl
@[simp] theorem State.createClaim_links : (s.createClaim l n g v).links = s.links := rfl
@[simp] theorem State.stampTaken_links : (s.stampTaken k).links = s.links := rfl
@[simp] theorem State.returnSteps_links : (s.returnSteps k).links = s.links := rfl
@[simp] theorem State.dropClaim_links : (s.dropClaim k).links = s.links := rfl
@[simp] theorem State.arm_links : (s.arm k).links = s.links := rfl
@[simp] theorem State.withRoles_links (p : Pair) : (s.withRoles p).links = s.links := rfl
@[simp] theorem State.recompute_links (ln : LineNo) : (s.recompute ln).links = s.links := rfl
@[simp] theorem State.startStep_links (x : Step) (t : Reading) (d : Bool) :
    (s.startStep k n x v t d).links = s.links := rfl
end

theorem State.settleOwner_links (s : State) (n : SlotNo) (g : Group) (k : Nat) (before : Option Claim) (seize : Bool) :
    (s.settleOwner n g k before seize).1.links = s.links := by
  unfold State.settleOwner
  split
  · split
    · split <;> rfl
    · rfl
  · rfl

theorem State.seizeSlot_links (s : State) (l : Link) (g : Group) (n : SlotNo) :
    (s.seizeSlot l g n).1.links = s.links := by
  unfold State.seizeSlot
  cases s.claimOf l n g <;> dsimp only <;> split <;> simp [State.settleOwner_links]

/-- A fold that gathers a list beside the state keeps the links when each of its steps does. -/
theorem foldl_fst_links {α β : Type} {f : State × List β → α → State × List β}
    (h : ∀ acc a, (f acc a).1.links = acc.1.links) (l : List α) (acc : State × List β) :
    (l.foldl f acc).1.links = acc.1.links := by
  induction l generalizing acc with
  | nil => rfl
  | cons a rest ih => exact (ih (f acc a)).trans (h acc a)

theorem State.seizeSlots_links (s : State) (l : Link) (g : Group) (slots : List SlotNo) :
    (s.seizeSlots l g slots).1.links = s.links := by
  unfold State.seizeSlots
  exact foldl_fst_links (fun acc n => by exact acc.1.seizeSlot_links l g n) slots (s, [])

theorem State.removeClaim_links (s : State) (c : Claim) (fade : Nat) : (s.removeClaim c fade).1.links = s.links := by
  rw [State.removeClaim_frame]; rfl

theorem State.removeClaims_links (s : State) (claims : List Claim) (fade : Nat) :
    (s.removeClaims claims fade).1.links = s.links := by
  unfold State.removeClaims
  exact foldl_fst_links (fun acc c => by exact acc.1.removeClaim_links c fade) claims (s, [])

theorem State.releaseClaims_told (s : State) (claims : List Claim) (fade : Nat) (cause : RestoreCause) :
    LinksTold s (s.releaseClaims claims fade cause) :=
  (State.raiseRestored_told _ cause _).after (s.removeClaims_links claims fade)

theorem State.clearRig_links (s : State) : s.clearRig.links = s.links := by
  have park : ∀ (ns : List SlotNo) (u : State), (ns.foldl State.parkSlot u).links = u.links := by
    intro ns
    induction ns with
    | nil => exact fun _ => rfl
    | cons n rest ih => exact fun u => ih (u.parkSlot n)
  simp only [State.clearRig, park]

theorem State.checkLowMark_told (s : State) (k : Nat) : LinksTold s (s.checkLowMark k) := by
  unfold State.checkLowMark
  split
  · exact .refl s
  · exact .ite ((State.raiseTo_told _ _ _).linksTold.after rfl) (.refl s)

theorem State.retire_told (s : State) (c : Claim) (r : RunningStep) : LinksTold s (s.retire c r) := by
  cases h : c.queueAtRetirement r.step with
  | nil => rw [State.retire_last h]; exact .of_links rfl
  | cons x rest => rw [State.retire_next h]; exact (State.checkLowMark_told _ _).after rfl

theorem State.retireInstant_told (fuel : Nat) (s : State) : LinksTold s (State.retireInstant fuel s) := by
  induction fuel generalizing s with
  | zero => exact .refl s
  | succ fuel ih =>
    unfold State.retireInstant
    split
    · exact .refl s
    · exact (s.retire_told _ _).trans (ih _)

theorem State.settleSteps_told (s : State) : LinksTold s s.settleSteps := by
  unfold State.settleSteps; exact State.retireInstant_told _ s

theorem State.retireDue_told (s : State) : LinksTold s s.retireDue := by
  unfold State.retireDue
  split
  · exact .refl s
  · refine .ite ?_ (.refl s)
    split
    · exact .refl s
    · split
      · exact .refl s
      · exact (s.retire_told _ _).trans (State.settleSteps_told _)

theorem State.startSteps_links (s : State) (c : Claim) (before : Option Claim) (v : Value) (x : Step) (rest : List Step) :
    (s.startSteps c before v x rest).1.links = s.links := by
  simp [State.startSteps, State.settleOwner_links]

theorem State.stepSlot_links (s : State) (q : StepRequest) (n : SlotNo) (steps : List Step) :
    (s.stepSlot q n steps).1.links = s.links := by
  unfold State.stepSlot
  cases s.claimOf q.link n q.group <;> dsimp only <;> split
  case h_1 | h_1 => simp
  case h_2 | h_2 =>
    rw [State.arm_links]
    cases steps with
    | nil => simp
    | cons x rest => dsimp only; split <;> simp [State.startSteps_links]

theorem State.stepSlots_links (q : StepRequest) (steps : List StepFields) (slots : List SlotNo) (records : List Nat)
    (s : State) : (State.stepSlots q steps slots records s).1.links = s.links := by
  induction slots generalizing records s with
  | nil => rfl
  | cons n rest ih => exact (ih _ _).trans (s.stepSlot_links q n _)

theorem State.takeStep_told (s : State) (q : StepRequest) (slots : List SlotNo) (steps : List StepFields) :
    LinksTold s (s.takeStep q slots steps) :=
  ((State.raiseDisplaced_told _ _ _ _).after (State.stepSlots_links q steps slots _ s)).trans (State.settleSteps_told _)

theorem State.haltClaim_links (s : State) (c : Claim) : (s.haltClaim c).links = s.links := by
  unfold State.haltClaim; split <;> rfl

/-! ### The console pair -/

theorem State.roleChangeOn_links (old : State) (fade : Nat) (acc : State × List Gain) (x : SlotNo × Group) :
    (old.roleChangeOn fade acc x).1.links = acc.1.links := by
  unfold State.roleChangeOn; split <;> rfl

theorem State.changeRoles_told (s : State) (p : Pair) (fade : Nat) : LinksTold s (s.changeRoles p fade) :=
  (State.raiseRestored_told _ _ _).after
    (foldl_fst_links (s.roleChangeOn_links fade) s.consoleGroups (s.withRoles p, []))

theorem State.raisePairChanged_told (s : State) (cause : PairCause) (fade : Nat) :
    LinksTold s (s.raisePairChanged cause fade) := s.raiseEach_told _ _

theorem State.swap_told (s : State) (fade : Nat) (cause : PairCause) : LinksTold s (s.swap fade cause) :=
  (s.changeRoles_told _ _).trans (State.raisePairChanged_told _ _ _)

theorem State.changeOverride_told (s : State) (on : Bool) (fade : Nat) (cause : PairCause) :
    LinksTold s (s.changeOverride on fade cause) :=
  (s.changeRoles_told _ _).trans (State.raisePairChanged_told _ _ _)

theorem State.standbySilent_told (s : State) : LinksTold s s.standbySilent :=
  .ite ((State.changeOverride_told _ _ _ _).after rfl)
    (.ite ((State.raisePairChanged_told _ _ _).after rfl) (.refl s))

theorem State.consoleLive_told (s : State) (l : Link) : LinksTold s (s.consoleLive l) :=
  .ite (s.swap_told _ _) (.refl s)

theorem State.consoleSilent_told (s : State) (l : Link) : LinksTold s (s.consoleSilent l) :=
  .ite (.ite (s.swap_told _ _) (.refl s)) s.standbySilent_told

/-! ### The Safety Layer -/

theorem State.setUrgentOnBound_links (s : State) : s.setUrgentOnBound.links = s.links := by
  have urge : ∀ (ns : List SlotNo) (u : State), (ns.foldl State.setUrgent u).links = u.links := by
    intro ns
    induction ns with
    | nil => exact fun _ => rfl
    | cons n rest ih => exact fun u => ih (u.setUrgent n)
  exact urge s.boundSlots s

theorem State.assertSafety_told (s : State) : LinksTold s s.assertSafety :=
  (State.raiseAll_told _ _).linksTold.after (State.setUrgentOnBound_links _)

theorem State.releaseSafety_told (s : State) : LinksTold s s.releaseSafety :=
  (State.raiseAll_told _ _).linksTold.after rfl

theorem State.clearSafety_told (s : State) (fade : Nat) : LinksTold s (s.clearSafety fade) := by
  have fades : ∀ (ns : List SlotNo) (u : State),
      (ns.foldl (fun u n => u.setFade n .level (some (u.clearRecord fade))) u).links = u.links := by
    intro ns
    induction ns with
    | nil => exact fun _ => rfl
    | cons n rest ih => exact fun u => ih (u.setFade n .level (some (u.clearRecord fade)))
  refine LinksTold.after (State.raiseAll_told _ _).linksTold ?_
  rw [fades, State.setUrgentOnBound_links]

/-! ### The lines and their fixtures -/

theorem State.makeMissing_told (s : State) (cause : GoneCause) (n : SlotNo) : LinksTold s (s.makeMissing cause n) := by
  unfold State.makeMissing
  split
  · exact .refl s
  · exact (State.raiseAll_told _ _).linksTold.after rfl

theorem State.endOperation_told (s : State) (ln : LineNo) (o : EnrolOutcome) : LinksTold s (s.endOperation ln o) :=
  .ite (.of_links rfl) ((State.raiseAll_told _ _).linksTold.after rfl)

theorem State.stopOperation_told (s : State) (ln : LineNo) (c : LineCondition) : LinksTold s (s.stopOperation ln c) :=
  (s.putCondition_told ln c true).linksTold.trans ((State.endOperation_told _ _ _).after rfl)

theorem State.goOff_told (s : State) (ln : LineNo) : LinksTold s (s.goOff ln) := by
  unfold State.goOff
  dsimp only
  refine .before (.after (.foldl (fun s n => s.makeMissing_told .lineOff n) _ _) ?_) (State.recompute_links _ ln)
  exact State.setLine_links ..

theorem State.abandonAndGoOff_told (s : State) (ln : LineNo) : LinksTold s (s.abandonAndGoOff ln) :=
  (LinksTold.ite (.refl s) (s.endOperation_told ln .abandoned)).trans (State.goOff_told _ ln)

theorem State.endExchange_told (s : State) (ln : LineNo) : LinksTold s (s.endExchange ln) := by
  unfold State.endExchange
  dsimp only
  exact .ite (.after (State.abandonAndGoOff_told _ ln) (State.setLine_links ..)) (.of_links rfl)

section
variable (s : State) (ln : LineNo)
@[simp] theorem State.beginExchange_links (frame : LineFrame) (rate : Rate) :
    (s.beginExchange ln frame rate).links = s.links := rfl

@[simp] theorem State.openWindow_links (x : Exchange) : (s.openWindow ln x).links = s.links := rfl

theorem State.startSet_links (n : SlotNo) (f : Fixture) : (s.startSet ln n f).links = s.links := by
  simp [State.startSet, State.evaluatedAll]

theorem State.startPoll_links (n : SlotNo) (f : Fixture) : (s.startPoll ln n f).links = s.links := by
  simp [State.startPoll]

theorem State.startJoining_links : (s.startJoining ln).links = s.links := by simp [State.startJoining]

theorem State.pick_links : (s.pick ln).links = s.links := by
  unfold State.pick
  split
  · split
    · split
      · rfl
      · split
        · exact s.startPoll_links ln _ _
        · exact s.startSet_links ln _ _
    · split
      · exact s.startJoining_links ln
      · rfl
  · rfl
end

theorem State.disable_told (s : State) (ln : LineNo) : LinksTold s (s.disable ln) :=
  .ite (.refl s) (.ite (s.goOff_told ln) (.ite (s.abandonAndGoOff_told ln) (.of_links rfl)))

theorem State.enable_links (s : State) (ln : LineNo) : (s.enable ln).links = s.links := by
  unfold State.enable; dsimp only; split <;> rfl

theorem State.writeType_links (s : State) (k : Fin 16) (code : BitVec 16) (m : Matrix) :
    (s.writeType k code m).links = s.links := by
  have write : ∀ (ns : List SlotNo) (u : State),
      (ns.foldl (fun u n => u.setSlot n ((u.slot n).retyped code k)) u).links = u.links := by
    intro ns
    induction ns with
    | nil => exact fun _ => rfl
    | cons n rest ih => exact fun u => ih (u.setSlot n ((u.slot n).retyped code k))
  exact write allSlots _

theorem State.forgetSlot_links (s : State) (n : SlotNo) : (s.forgetSlot n).links = s.links := by
  unfold State.forgetSlot; split <;> rfl

theorem State.bindInto_told (s : State) (n : SlotNo) (ln : LineNo) (x : BitVec 40) (a : Nat) (c : Caps) (b : Bool) :
    LinksTold s (s.bindInto n ln x a c b) :=
  ⟨fun _ => .fixtureJoined n ln a c.typeCode b ::
    conditionNotices n (((s.slot n).fixture.map Fixture.conditions).getD ConditionSet.empty) c.conditions,
    (s.bindInto_frame n ln x a c b).2.1⟩

theorem State.ackSet_told (s : State) (n : SlotNo) (f : Fixture) (c : ConditionSet) (p q : Nat) :
    LinksTold s (s.ackSet n f c p q) :=
  ⟨fun _ => conditionNotices n f.conditions c, (s.ackSet_frame n f c p q).2.1⟩

theorem State.ackPoll_told (s : State) (ln : LineNo) (n : SlotNo) (f : Fixture) (c : ConditionSet) (p q : Nat) :
    LinksTold s (s.ackPoll ln n f c p q) := by
  unfold State.ackPoll
  dsimp only
  refine .before (.trans (.after (State.raiseAll_told _ _).linksTold ?_) (State.raiseConditions_told _ _ _ _).linksTold)
    (State.recompute_links _ ln)
  simp

theorem State.missSet_told (s : State) (ln : LineNo) (n : SlotNo) (f : Fixture) : LinksTold s (s.missSet ln n f) := by
  unfold State.missSet
  dsimp only
  refine .ite (.before (.after (State.makeMissing_told _ _ _) ?_) (State.recompute_links _ ln)) ?_
  · exact State.setSlot_links ..
  · exact .of_links (State.setSlot_links ..)

theorem State.applySet_told (s : State) (ln : LineNo) (n : SlotNo) (o : AckOutcome) : LinksTold s (s.applySet ln n o) := by
  unfold State.applySet
  split
  · exact .refl s
  · split
    · exact s.ackSet_told _ _ _ _ _
    · exact s.missSet_told _ _ _

theorem State.applyPoll_told (s : State) (ln : LineNo) (n : SlotNo) (o : AckOutcome) :
    LinksTold s (s.applyPoll ln n o) := by
  unfold State.applyPoll
  split
  · split
    · exact .refl s
    · exact s.ackPoll_told _ _ _ _ _ _
  · exact .refl s

theorem State.applyOutcome_told (s : State) (ln : LineNo) (frame : LineFrame) (o : AckOutcome) :
    LinksTold s (s.applyOutcome ln frame o) := by
  have applied : LinksTold s
      (match frame with | .set n .. => s.applySet ln n o | .poll n _ => s.applyPoll ln n o | _ => s) := by
    split
    · exact s.applySet_told _ _ _
    · exact s.applyPoll_told _ _ _
    · exact .refl s
  exact .ite (applied.trans (State.putCondition_told _ _ _ _).linksTold) applied

theorem State.endReply_told (s : State) (ln : LineNo) (reply : List RxChar) : LinksTold s (s.endReply ln reply) := by
  unfold State.endReply
  split
  · exact .refl s
  · split
    · exact .refl s
    · exact .ite ((s.applyOutcome_told _ _ _).trans (State.endExchange_told _ _)) (.refl s)

theorem State.expireReply_told (s : State) (ln : LineNo) : LinksTold s (s.expireReply ln) := by
  unfold State.expireReply
  split
  · exact .refl s
  · split
    · exact .refl s
    · exact .ite ((s.applyOutcome_told _ _ _).trans (State.endExchange_told _ _)) (.refl s)

theorem State.startEnrolFrame_links (s : State) (ln : LineNo) : (s.startEnrolFrame ln).links = s.links := by
  unfold State.startEnrolFrame
  dsimp only
  split
  · split
    · rfl
    · split <;> rfl
  · rfl

theorem State.endLineFrame_links (s : State) (ln : LineNo) : (s.endLineFrame ln).links = s.links := by
  unfold State.endLineFrame
  split
  · rfl
  · split <;> rfl

theorem State.endAssign_links (s : State) (ln : LineNo) : (s.endAssign ln).links = s.links := by
  unfold State.endAssign
  split
  · rfl
  · split
    · split <;> rfl
    · rfl

theorem State.dropAll_told (s : State) (ln : LineNo) : LinksTold s (s.dropAll ln) :=
  (LinksTold.foldl (fun s n => s.makeMissing_told .dropped n) _ s).before rfl

theorem State.endDrop_told (s : State) (ln : LineNo) : LinksTold s (s.endDrop ln) := by
  unfold State.endDrop
  split
  · split
    · exact (s.stopOperation_told _ _).trans (State.endExchange_told _ _)
    · exact (s.dropAll_told _).trans (State.endExchange_told _ _)
  · exact .refl s

theorem State.openArbitration_links (s : State) (ln : LineNo) : (s.openArbitration ln).links = s.links := by
  unfold State.openArbitration; split <;> rfl

theorem State.endArbitration_told (s : State) (ln : LineNo) (samples : BitVec 40) :
    LinksTold s (s.endArbitration ln samples) := by
  unfold State.endArbitration
  split
  · refine .ite ((s.endOperation_told _ _).trans (State.endExchange_told _ _)) ?_
    split <;> exact (State.endExchange_told _ _).after rfl
  · exact .refl s

theorem State.capsFailed_told (s : State) (ln : LineNo) (a : Nat) : LinksTold s (s.capsFailed ln a) :=
  (State.endExchange_told _ _).after rfl

theorem State.bindOn_told (s : State) (ln : LineNo) (n : SlotNo) (x : BitVec 40) (a : Nat) (c : Caps) (b : Bool) :
    LinksTold s (s.bindOn ln n x a c b) :=
  (s.bindInto_told n ln x a c b).trans ((State.endExchange_told _ _).after rfl)

theorem State.refuseBinding_told (s : State) (ln : LineNo) (a : Nat) (c : LineCondition) :
    LinksTold s (s.refuseBinding ln a c) := (State.endExchange_told _ _).after rfl

theorem State.receiveCaps_told (s : State) (ln : LineNo) (x : BitVec 40) (a : Nat) (c : Caps) :
    LinksTold s (s.receiveCaps ln x a c) := by
  unfold State.receiveCaps
  split
  · exact s.bindOn_told ..
  · exact s.bindOn_told ..
  · exact s.refuseBinding_told ..
  · exact s.refuseBinding_told ..

theorem State.beginEnrolment_told (s : State) (ln : LineNo) (o : Operation) (b : SubState) :
    LinksTold s (s.beginEnrolment ln o b) :=
  (((s.putCondition_told _ _ _).linksTold.trans (State.putCondition_told _ _ _ _).linksTold).trans
    (State.putCondition_told _ _ _ _).linksTold).before rfl

end Sys2Proof.Machine
end

section
/-! PROOF. The promises of the Link Interface (R3, R4, R9, R10, R12, R15, R17): what each operation on one link's record
keeps of them, and that every step keeps them all. -/

namespace Sys2Proof.Machine

/-! ### One link's record -/

theorem LinkRec.Sound.live_of_inHand {r : LinkRec} (h : r.Sound) (hi : r.inHand.isSome = true) : r.state = .live := by
  cases hs : r.state with
  | live => rfl
  | idle => rw [(h.idle_empty hs).2.1] at hi; cases hi
  | silent => rw [(h.silent_empty hs).2.1] at hi; cases hi

/-- R8, R9: a notice is refused by a link that is not LIVE, and one that finds no room leaves a full queue. -/
theorem LinkRec.Sound.receive {r : LinkRec} (h : r.Sound) (n : Notice) : (r.receive n).Sound := by
  by_cases hl : r.state = .live
  · have fits := LinkRec.receive_fits n h.notices_fit
    unfold LinkRec.receive at fits ⊢
    rw [if_pos hl] at fits ⊢
    by_cases room : r.notices.length < Config.noticeQueueSize
    · rw [if_pos room] at fits ⊢
      exact { h with
        notices_fit := fits
        overflow_over_notices := fun e => by simp at e
        silent_empty := fun e => by simp [hl] at e
        idle_empty := fun e => by simp [hl] at e }
    · rw [if_neg room]
      exact { h with
        overflow_over_notices := fun e => absurd (e ▸ room) (by simp [Config.noticeQueueSize])
        silent_empty := fun e => by simp [hl] at e
        idle_empty := fun e => by simp [hl] at e }
  · rwa [LinkRec.receive_of_not_live n hl]

theorem LinkRec.Sound.told {r : LinkRec} (h : r.Sound) (ns : List Notice) : (ns.foldl LinkRec.receive r).Sound := by
  induction ns generalizing r with
  | nil => exact h
  | cons n rest ih => exact ih (h.receive n)

/-- R4: an answer is placed in the buffer of a link that is not IDLE, and its request is no longer in hand. -/
theorem LinkRec.Sound.answered {r : LinkRec} (h : r.Sound) (hs : r.state ≠ .idle) (a : Answer) :
    { r with inHand := none, answer := some a, requestOverrun := false }.Sound :=
  { h with
    one_at_a_time := fun e => by cases e
    handed_on := fun e => by cases e
    sending_answer := fun _ _ _ => rfl
    silent_empty := fun e => ⟨(h.silent_empty e).1, rfl, (h.silent_empty e).2.2.1, rfl⟩
    idle_empty := fun e => absurd e hs }

/-- R11: the link becomes LIVE, with nothing else changed. -/
theorem LinkRec.Sound.becomeLive {r : LinkRec} (h : r.Sound) (t : Reading) :
    { r with state := .live, lastGood := t }.Sound :=
  { h with
    silent_empty := fun e => nomatch e
    idle_empty := fun e => nomatch e }

/-- R15: silence leaves an answer whose sending has begun, and nothing else. -/
theorem LinkRec.Sound.flush {r : LinkRec} (h : r.Sound) : r.flush.Sound :=
  { h with
    requests_fit := Nat.zero_le _
    notices_fit := Nat.zero_le _
    overflow_over_notices := fun _ => rfl
    one_at_a_time := fun e => by cases e
    handed_on := fun _ _ => rfl
    sending_answer := fun x (hx : r.sending = some x) ha => by
      simpa [LinkRec.flush, hx, ha] using h.sending_answer x hx ha
    silent_empty := fun _ => ⟨rfl, rfl, rfl, rfl⟩
    idle_empty := fun e => by cases e }

/-- R12, R117: the settings of a SET_LINK are stored in their ranges. -/
theorem LinkRec.Sound.settings {r : LinkRec} (h : r.Sound) (limit : Nat) {fade : Nat} (hf : fade ≤ 600000) :
    { r with silenceLimit := clampBetween 100 5000 limit, lossFade := fade }.Sound :=
  { h with limit_range := clampBetween_range limit (by decide), fade_range := hf }

/-- R3, R4: a good frame that comes to a LIVE link is in hand at once where nothing is being worked on, and otherwise
joins the queue or is discarded. -/
theorem LinkRec.Sound.arrived {r : LinkRec} (h : r.Sound) (hl : r.state = .live) (f : Frame) :
    (r.enqueue f).handOn.Sound := by
  obtain ⟨frame, room, full⟩ := r.enqueue_spec f
  have sameAnswer : (r.enqueue f).answer = r.answer := by rw [frame]
  have sameHand : (r.enqueue f).inHand = r.inHand := by rw [frame]
  by_cases free : r.answer = none ∧ r.inHand = none
  · have none_waits : r.requests = [] := h.handed_on free.1 free.2
    have : (r.enqueue f).handOn = { r with inHand := some f } := by
      simp [LinkRec.enqueue, LinkRec.handOn, Config.requestQueueSize, none_waits, free]
    rw [this]
    exact { h with
      one_at_a_time := fun _ => free.1
      handed_on := fun _ e => by cases e
      silent_empty := fun e => by simp [hl] at e
      idle_empty := fun e => by simp [hl] at e }
  · rw [(r.enqueue f).handOn_spec.2.2 (by rwa [sameAnswer, sameHand])]
    have fit : (r.enqueue f).requests.length ≤ 4 := by
      have := h.requests_fit
      by_cases hr : r.requests.length < 4
      · rw [(room hr).1, List.length_append]; simpa using hr
      · rw [(full (Nat.le_of_not_lt hr)).1]; exact this
    rw [frame]
    exact { h with
      requests_fit := fit
      handed_on := fun e g => absurd ⟨e, g⟩ free
      silent_empty := fun e => by simp [hl] at e
      idle_empty := fun e => by simp [hl] at e }

/-- R9, R10: a frame begun is that of the answer buffer, or it takes the oldest notice from its queue. -/
theorem LinkRec.Sound.beginFrame {r : LinkRec} (h : r.Sound) (micros : Nat) : (r.beginFrame micros).Sound := by
  unfold LinkRec.beginFrame
  split
  · split
    · rename_i a _ ha
      exact { h with sending_answer := fun _ _ _ => by rw [ha]; rfl }
    · rename_i n rest ha hn
      exact { h with
        notices_fit := by have := h.notices_fit; rw [hn, List.length_cons] at this; exact (Nat.lt_of_succ_le this).le
        overflow_over_notices := fun e => by simp only at e; simp [e]
        sending_answer := fun x hx hi => by cases hx; cases hi
        silent_empty := fun e => by have := (h.silent_empty e).2.2.1; rw [hn] at this; cases this
        idle_empty := fun e => by have := (h.idle_empty e).2.2.1; rw [hn] at this; cases this }
    · exact h
  · exact h

/-- R4, R10: the end of an answer empties the answer buffer and hands the oldest request on; the end of a notice, with
nothing to hand on, leaves both as they are. -/
theorem LinkRec.Sound.endFrame {r : LinkRec} (h : r.Sound) (micros : Nat) : (r.endFrame micros).Sound := by
  unfold LinkRec.endFrame
  split
  · exact h
  rename_i x hx
  split
  swap
  · exact h
  cases ha : x.isAnswer with
  | false =>
    have none_handed : ∀ q : LinkRec, q.answer = r.answer → q.inHand = r.inHand → q.requests = r.requests →
        q.handOn = q := by
      intro q h1 h2 h3
      by_cases free : q.answer = none ∧ q.inHand = none
      · have : q.requests = [] := h3 ▸ h.handed_on (h1 ▸ free.1) (h2 ▸ free.2)
        simp [LinkRec.handOn, this, free]
      · exact q.handOn_spec.2.2 free
    simp only [Bool.false_eq_true, if_false]
    rw [none_handed { r with sending := none, txReady := micros + 50 } rfl rfl rfl]
    exact { h with sending_answer := fun _ e => by cases e }
  | true =>
    have occupied : r.answer.isSome = true := h.sending_answer x hx ha
    have none_in_hand : r.inHand = none := by
      cases hi : r.inHand with
      | none => rfl
      | some f => rw [h.one_at_a_time (by rw [hi]; rfl)] at occupied; cases occupied
    cases hq : r.requests with
    | nil =>
      simp only [LinkRec.handOn, none_in_hand, if_true]
      exact { h with
        requests_fit := Nat.zero_le _
        one_at_a_time := fun _ => rfl
        handed_on := fun _ _ => rfl
        sending_answer := fun _ e => by cases e
        silent_empty := fun e => ⟨rfl, rfl, (h.silent_empty e).2.2⟩
        idle_empty := fun e => ⟨rfl, rfl, (h.idle_empty e).2.2.1, (h.idle_empty e).2.2.2.1, rfl⟩ }
    | cons f rest =>
      simp only [LinkRec.handOn, none_in_hand, if_true]
      exact { h with
        requests_fit := by have := h.requests_fit; rw [hq, List.length_cons] at this; exact (Nat.lt_of_succ_le this).le
        one_at_a_time := fun _ => rfl
        handed_on := fun _ e => by cases e
        sending_answer := fun _ e => by cases e
        silent_empty := fun e => by have := (h.silent_empty e).1; rw [hq] at this; cases this
        idle_empty := fun e => by have := (h.idle_empty e).1; rw [hq] at this; cases this }

theorem LinkRec.reset_sound {fade : Nat} (h : fade ≤ 600000) : (LinkRec.reset fade).Sound where
  requests_fit := Nat.zero_le _
  notices_fit := Nat.zero_le _
  overflow_over_notices _ := rfl
  one_at_a_time e := by cases e
  handed_on _ _ := rfl
  sending_answer _ e := by cases e
  silent_empty e := by cases e
  idle_empty _ := ⟨rfl, rfl, rfl, rfl, rfl⟩
  limit_range := ⟨by simp [LinkRec.reset], by simp [LinkRec.reset]⟩
  fade_range := h

/-- Entering reset, and taking a new assembler, leave every promise about a record. -/
theorem LinkRec.Sound.stopped {r : LinkRec} (h : r.Sound) (a : Assembler) :
    { r with sending := none, assembler := a }.Sound :=
  { h with sending_answer := fun _ e => by cases e }

/-! ### All links -/

/-- The promises about the links that hold in `s` hold in `t`. -/
def KeepsLinks (s t : State) : Prop :=
  (s.LinksSound → t.LinksSound) ∧ (s.LossFadesSound → t.LossFadesSound)

theorem KeepsLinks.refl (s : State) : KeepsLinks s s := ⟨id, id⟩

theorem KeepsLinks.trans {s t u : State} (h : KeepsLinks s t) (g : KeepsLinks t u) : KeepsLinks s u :=
  ⟨g.1 ∘ h.1, g.2 ∘ h.2⟩

theorem KeepsLinks.ite {s t u : State} {c : Prop} [Decidable c] (ht : c → KeepsLinks s t) (hu : KeepsLinks s u) :
    KeepsLinks s (if c then t else u) := by
  split
  · exact ht ‹_›
  · exact hu

theorem LinksTold.keeps {s t : State} (h : LinksTold s t) : KeepsLinks s t := by
  obtain ⟨ns, h⟩ := h
  refine ⟨fun sound k => by rw [h k]; exact (sound k).told _, fun fades => ?_⟩
  have same : ∀ k, (t.link k).lossFade = (s.link k).lossFade := fun k => by
    rw [h k, LinkRec.receive_foldl_frame]
  exact ⟨(same .cl0).trans fades.1, (same .cl1).trans fades.2⟩

/-- A write to one link's record keeps the promises when the record keeps its own, and a console's loss fade stays. -/
theorem State.setLink_keeps {s : State} {l : Link} {r : LinkRec} (h : (s.link l).Sound → r.Sound)
    (hf : l.tier = 2 → r.lossFade = (s.link l).lossFade) : KeepsLinks s (s.setLink l r) := by
  refine ⟨fun sound k => ?_, fun ⟨f0, f1⟩ => ?_⟩
  · rw [State.setLink_link]; split
    · exact h (sound l)
    · exact sound k
  · unfold State.LossFadesSound
    rw [State.setLink_link, State.setLink_link]
    cases l <;> simp_all [Link.tier]

theorem State.whenRunning_keeps {effect : State → State} (h : ∀ s, KeepsLinks s (effect s)) (s : State) :
    KeepsLinks s (s.whenRunning effect) := by
  unfold State.whenRunning; split
  · exact .refl s
  · exact h s

/-! ### Takings -/

/-- `u` is what an answer to the link `l` leaves, placed when the promises still held and the link was in its state. -/
def Answers (s : State) (l : Link) (u : State) : Prop :=
  ∃ v f x d, KeepsLinks s v ∧ (v.link l).state = (s.link l).state ∧ u = v.answer l f x d

theorem LinksTold.answers {s v : State} {l : Link} (h : LinksTold s v) (f : Frame) (x : Status) (d : AnswerData) :
    Answers s l (v.answer l f x d) :=
  ⟨v, f, x, d, h.keeps, by rw [h.hear l], rfl⟩

theorem State.refuse_answers (s : State) (l : Link) (f : Frame) (x : Status) : Answers s l (s.refuse l f x) :=
  (LinksTold.refl s).answers f x .none

theorem State.withSlots_answers {s : State} {l : Link} {f : Frame} {set : SlotSet} {go : List SlotNo → State}
    (h : ∀ slots, Answers s l (go slots)) : Answers s l (s.withSlots l f set go) := by
  unfold State.withSlots; split
  · exact s.refuse_answers l f _
  · exact h _

theorem State.withPermission_answers {s : State} {l : Link} {f : Frame} {b : Bool} {go : State}
    (h : Answers s l go) : Answers s l (s.withPermission l f b go) := by
  unfold State.withPermission; split
  · exact h
  · exact s.refuse_answers l f _

theorem Answers.ite {s t u : State} {l : Link} {c : Prop} [Decidable c] (ht : Answers s l t) (hu : Answers s l u) :
    Answers s l (if c then t else u) := by
  split <;> assumption

/-- An answer goes to a link with a request in hand, which is LIVE. -/
theorem Answers.keeps {s u : State} {l : Link} (h : Answers s l u) (hi : (s.link l).inHand.isSome = true) :
    KeepsLinks s u := by
  obtain ⟨v, f, x, d, kept, same, rfl⟩ := h
  refine ⟨fun sound => ?_, fun fades => ?_⟩
  · have live := (sound l).live_of_inHand hi
    exact (State.setLink_keeps (fun h => h.answered (by rw [same, live]; decide) _) (fun _ => rfl)).1 (kept.1 sound)
  · have := kept.2 fades
    unfold State.LossFadesSound at this ⊢
    rw [State.answer_link, State.answer_link]
    cases l <;> exact this

theorem State.takeInHand_keeps {s : State} {l : Link} {take : Frame → Request → Option State}
    (h : ∀ f r u, take f r = some u → Answers s l u) : KeepsLinks s (s.takeInHand l take) := by
  unfold State.takeInHand
  split
  · exact .refl s
  · rename_i f hf
    split
    · exact .refl s
    · rename_i r _
      cases ht : take f r with
      | none => exact .refl s
      | some u => exact (h f r u ht).keeps (by rw [hf]; rfl)

theorem State.takeSeize_answers (s : State) (l : Link) (g : Group) (slots : List SlotNo) (f : Frame) :
    Answers s l (s.takeSeize l g slots f) :=
  .ite (s.refuse_answers l f _)
    (((State.raiseDisplaced_told _ _ _ _).after (s.seizeSlots_links l g slots)).answers f _ _)

theorem State.takeRelease_answers (s : State) (l : Link) (g : Group) (slots : List SlotNo) (fade : Nat) (f : Frame) :
    Answers s l (s.takeRelease l g slots fade f) :=
  .ite (s.refuse_answers l f _) ((s.releaseClaims_told _ _ _).answers f _ _)

theorem State.stepOrRefuse_answers (s : State) (q : StepRequest) (slots : List SlotNo) (steps : List StepFields)
    (f : Frame) : Answers s q.link (s.stepOrRefuse q slots steps f) := by
  unfold State.stepOrRefuse
  split
  · exact s.refuse_answers _ f _
  · exact (s.takeStep_told q slots steps).answers f _ _

theorem State.takeHalt_answers (s : State) (l : Link) (g : Group) (slots : List SlotNo) (f : Frame) :
    Answers s l (s.takeHalt l g slots f) :=
  .ite (s.refuse_answers l f _)
    (((LinksTold.foldl (fun s c => .of_links (s.haltClaim_links c)) _ s).trans (State.settleSteps_told _)).answers f _ _)

theorem State.takeSetMode_answers (s : State) (l : Link) (g : Group) (slots : List SlotNo) (mode : Mode) (low : Nat)
    (f : Frame) : Answers s l (s.takeSetMode l g slots mode low f) :=
  .ite (s.refuse_answers l f _) ((LinksTold.foldl (f := fun s c => s.setModeOf mode low c) (fun _ _ => .of_links rfl) _ s).answers
    f _ _)

theorem State.takeAsk_answers (s : State) (l : Link) (f : Frame) : Answers s l (s.takeAsk l f) :=
  .ite (s.refuse_answers l f _)
    ((LinksTold.after (s := s) (State.raiseTo_told { s with pair := { s.pair with askPending := true } } _ _).linksTold
      rfl).answers f _ _)

theorem State.takeDecline_answers (s : State) (l : Link) (f : Frame) : Answers s l (s.takeDecline l f) :=
  (LinksTold.ite (.after (s := s)
    (State.raiseTo_told { s with pair := { s.pair with askPending := false } } _ _).linksTold rfl)
    (.refl s)).answers f _ _

theorem State.takeOverride_answers (s : State) (l : Link) (on : Bool) (fade : Nat) (f : Frame) :
    Answers s l (s.takeOverride l on fade f) :=
  (LinksTold.ite (.refl s) (s.changeOverride_told _ _ _)).answers f _ _

theorem State.takeSafeClear_answers (s : State) (l : Link) (fade : Nat) (f : Frame) :
    Answers s l (s.takeSafeClear l fade f) := by
  unfold State.takeSafeClear
  split
  · exact s.refuse_answers l f _
  · exact (LinksTold.refl s).answers f _ _
  · exact (s.clearSafety_told _).answers f _ _

theorem State.takeSetLine_answers (s : State) (l : Link) (x : LineSettings) (f : Frame) :
    Answers s l (s.takeSetLine l x f) :=
  (LinksTold.after (LinksTold.ite (.of_links (State.enable_links _ _)) (State.disable_told _ _))
    ((State.recompute_links _ _).trans (State.setLine_links _ _ _))).answers f _ _

theorem State.takeEnrol_answers (s : State) (l : Link) (ln : LineNo) (o : Operation) (b : SubState) (f : Frame) :
    Answers s l (s.takeEnrol l ln o b f) :=
  .ite (s.refuse_answers l f _) (.ite (s.refuse_answers l f _) ((s.beginEnrolment_told ln o b).answers f _ _))

theorem State.takeSetType_answers (s : State) (l : Link) (code : BitVec 16) (m : Matrix) (f : Frame) :
    Answers s l (s.takeSetType l code m f) := by
  have write : ∀ k, Answers s l ((s.writeType k code m).answer l f .ok (.entry k.val)) := fun k =>
    (LinksTold.of_links (s.writeType_links k code m)).answers f _ _
  unfold State.takeSetType
  split
  · exact write _
  · split
    · exact write _
    · exact s.refuse_answers l f _

theorem State.takeForget_answers (s : State) (l : Link) (slots : List SlotNo) (f : Frame) :
    Answers s l (s.takeForget l slots f) :=
  .ite (s.refuse_answers l f _)
    ((LinksTold.foldl (fun s n => .of_links (s.forgetSlot_links n)) slots s).answers f _ _)

theorem State.takeReadLine_answers (s : State) (l : Link) (ln : LineNo) (f : Frame) :
    Answers s l (s.takeReadLine l ln f) := (s.putCondition_told ln _ _).linksTold.answers f _ _

/-! ### The events of the Link Interface -/

/-- R13, R14, R15: silence flushes its link, and tells the others of what it brings. -/
theorem State.silence_told (s : State) (l : Link) : LinksTold (s.setLink l (s.link l).flush) (s.silence l) :=
  .ite (State.consoleSilent_told _ l) (State.releaseClaims_told _ _ _ _)

theorem State.silence_keeps (s : State) (l : Link) : KeepsLinks s (s.silence l) :=
  (State.setLink_keeps (fun h => h.flush) (fun _ => rfl)).trans (s.silence_told l).keeps

theorem State.becomeLive_told (s : State) (l : Link) :
    LinksTold (s.setLink l { s.link l with state := .live, lastGood := s.now }) (s.becomeLive l) :=
  .ite (State.consoleLive_told _ l) (.refl _)

theorem State.becomeLive_live (s : State) (l : Link) : ((s.becomeLive l).link l).state = .live := by
  rw [(s.becomeLive_told l).hear l, State.setLink_link_self]

theorem State.arrive_keeps (s : State) (l : Link) (f : Frame) : KeepsLinks s (s.arrive l f) := by
  have live : KeepsLinks s (s.becomeLive l) :=
    (State.setLink_keeps (fun h => h.becomeLive s.now) (fun _ => rfl)).trans (s.becomeLive_told l).keeps
  refine live.trans (State.setLink_keeps (fun h => h.arrived (s.becomeLive_live l) f) fun _ => ?_)
  rw [(LinkRec.handOn_spec _).1, (LinkRec.enqueue_spec _ f).1]

theorem State.storeLinkSettings_keeps (s : State) (target : Link) (limit fade : Nat) :
    KeepsLinks s (s.storeLinkSettings target limit fade) := by
  refine State.setLink_keeps (fun h => h.settings limit ?_) (fun ht => by simp [ht])
  split
  · exact h.fade_range
  · exact clampTime_le fade

/-- R12: a SET_LINK silences a link other than its sender, whose state therefore stays. -/
theorem State.takeSetLink_answers (s : State) (l target : Link) (limit fade : Nat) (f : Frame) :
    Answers s l (s.takeSetLink l target limit fade f) := by
  refine ⟨_, f, _, .none, ?_, ?_, rfl⟩
  · exact KeepsLinks.trans (s.storeLinkSettings_keeps target limit fade)
      (.ite (fun _ => State.silence_keeps _ target) (.refl _))
  · have stored : ((s.storeLinkSettings target limit fade).link l).state = (s.link l).state := by
      unfold State.storeLinkSettings
      rw [State.setLink_link]; split
      · rename_i e; rw [e]
      · rfl
    split
    · rename_i h
      rw [(State.silence_told _ target).hear l, State.setLink_link_ne _ _ h.1.symm]
      exact stored
    · exact stored

/-! ### Every command -/

/-- A command that goes by in reset, and otherwise has an effect that keeps the promises, keeps them. -/
theorem keeps_of_running {s t : State} {effect : State → State}
    (h : (.next (s.whenRunning effect) : Result) = .next t) (he : ∀ s, KeepsLinks s (effect s)) : KeepsLinks s t := by
  cases h; exact State.whenRunning_keeps he s

/-- A command that goes by in reset, and otherwise only tells the links of something. -/
theorem keeps_of_telling {s t : State} {effect : State → State}
    (h : (.next (s.whenRunning effect) : Result) = .next t) (he : ∀ s, LinksTold s (effect s)) : KeepsLinks s t :=
  keeps_of_running h fun s => (he s).keeps

/-- A request row keeps the promises when every taking of its request answers it. -/
theorem keeps_of_taking {s t : State} {l : Link} {take : State → Frame → Request → Option State}
    (h : (.next (s.whenRunning fun s => s.takeInHand l (take s)) : Result) = .next t)
    (ht : ∀ s f r u, take s f r = some u → Answers s l u) : KeepsLinks s t :=
  keeps_of_running h fun s => State.takeInHand_keeps (ht s)

theorem State.enterReset_keeps (s : State) : KeepsLinks s s.enterReset := by
  have link : ∀ k, s.enterReset.link k =
      { s.link k with sending := none, assembler := (LinkRec.reset 0).assembler } := fun k => by
    simp [State.enterReset, State.link]
  exact ⟨fun h k => by rw [link]; exact (h k).stopped _, fun h => by
    unfold State.LossFadesSound; rw [link, link]; exact h⟩

theorem State.reset_linksSound : State.reset.LinksSound := fun l => by
  cases l <;> exact LinkRec.reset_sound (by decide)

theorem State.reset_lossFadesSound : State.reset.LossFadesSound := ⟨rfl, rfl⟩

theorem exec_keepsLinks (c : Instr) (s t : State) (h : exec c s = .next t) : KeepsLinks s t := by
  cases c with
  | powerOnReset cause =>
    cases h
    cases cause with
    | supplyRise => exact s.enterReset_keeps
    | resetNLow => exact .ite (fun _ => s.enterReset_keeps) (.refl s)
  | leaveReset =>
    cases h
    exact .ite (fun _ => ⟨fun _ => State.reset_linksSound, fun _ => State.reset_lossFadesSound⟩) (.refl s)
  | resetNChange high => cases h; exact .ite (fun _ => .refl s) ⟨id, id⟩
  | safeNChange high => cases h; exact .ite (fun _ => .refl s) ⟨id, id⟩
  | safetyAssertion => exact keeps_of_telling h fun s => .ite s.assertSafety_told (.refl s)
  | safetyRelease => exact keeps_of_telling h fun s => .ite s.releaseSafety_told (.refl s)
  | stampBecomesOld which => exact keeps_of_telling h fun s => by cases which <;> exact .of_links rfl
  | frameArrival l chars =>
    refine keeps_of_running h fun s => ?_
    dsimp only
    have cleared : KeepsLinks s (s.setLink l { s.link l with assembler := Assembler.empty }) :=
      State.setLink_keeps (fun h => { h with }) (fun _ => rfl)
    split
    · exact cleared
    · exact cleared.trans (State.arrive_keeps _ l _)
  | silenceTimeout l => exact keeps_of_running h fun s => .ite (fun _ => s.silence_keeps l) (.refl s)
  | transmitStart l =>
    refine keeps_of_running h fun s => State.setLink_keeps (fun h => h.beginFrame _) fun _ => ?_
    unfold LinkRec.beginFrame; split
    · split <;> rfl
    · rfl
  | transmitDone l =>
    refine keeps_of_running h fun s => State.setLink_keeps (fun h => h.endFrame _) fun _ => ?_
    unfold LinkRec.endFrame; split
    · rfl
    · split
      · rw [(LinkRec.handOn_spec _).1]
      · rfl
  | unknownKind l =>
    refine keeps_of_running h fun s => ?_
    split
    · exact .refl s
    · rename_i f hf
      split
      · exact (s.refuse_answers l f _).keeps (by rw [hf]; rfl)
      · exact .refl s
  | seize l =>
    refine keeps_of_taking h fun s f r u e => ?_
    split at e <;> cases e
    exact State.withSlots_answers fun slots => s.takeSeize_answers l _ slots f
  | release l =>
    refine keeps_of_taking h fun s f r u e => ?_
    split at e <;> cases e
    exact State.withSlots_answers fun slots => s.takeRelease_answers l _ slots _ f
  | stepReplace l =>
    refine keeps_of_taking h fun s f r u e => ?_
    split at e <;> cases e
    exact State.withSlots_answers fun slots => s.stepOrRefuse_answers ⟨l, _, _, _, _⟩ slots _ f
  | stepAppend l =>
    refine keeps_of_taking h fun s f r u e => ?_
    split at e <;> cases e
    exact State.withSlots_answers fun slots => s.stepOrRefuse_answers ⟨l, _, _, _, _⟩ slots _ f
  | halt l =>
    refine keeps_of_taking h fun s f r u e => ?_
    split at e <;> cases e
    exact State.withSlots_answers fun slots => s.takeHalt_answers l _ slots f
  | setMode l =>
    refine keeps_of_taking h fun s f r u e => ?_
    split at e <;> cases e
    exact State.withSlots_answers fun slots => s.takeSetMode_answers l _ slots _ _ f
  | stepExpiry => exact keeps_of_telling h State.retireDue_told
  | handoverAsk l =>
    refine keeps_of_taking h fun s f r u e => ?_
    split at e <;> cases e
    exact State.withPermission_answers (s.takeAsk_answers l f)
  | handoverDecline l =>
    refine keeps_of_taking h fun s f r u e => ?_
    split at e <;> cases e
    exact State.withPermission_answers (s.takeDecline_answers l f)
  | handoverGive l =>
    refine keeps_of_taking h fun s f r u e => ?_
    split at e <;> cases e
    exact State.withPermission_answers ((s.swap_told _ _).answers f _ _)
  | overrideOn l =>
    refine keeps_of_taking h fun s f r u e => ?_
    split at e <;> cases e
    exact State.withPermission_answers (s.takeOverride_answers l _ _ f)
  | overrideOff l =>
    refine keeps_of_taking h fun s f r u e => ?_
    split at e <;> cases e
    exact State.withPermission_answers (s.takeOverride_answers l _ _ f)
  | setPair l =>
    refine keeps_of_taking h fun s f r u e => ?_
    split at e <;> cases e
    exact State.withPermission_answers
      ((LinksTold.of_links (t := { s with pair := { s.pair with failoverFade := clampTime _ } }) rfl).answers f _ _)
  | safeClear l =>
    refine keeps_of_taking h fun s f r u e => ?_
    split at e <;> cases e
    exact State.withPermission_answers (s.takeSafeClear_answers l _ f)
  | setLine l =>
    refine keeps_of_taking h fun s f r u e => ?_
    split at e <;> cases e
    exact State.withPermission_answers (s.takeSetLine_answers l _ f)
  | enrolLineFull l =>
    refine keeps_of_taking h fun s f r u e => ?_
    split at e <;> cases e
    exact State.withPermission_answers (s.takeEnrol_answers l _ _ _ f)
  | enrolLineJoin l =>
    refine keeps_of_taking h fun s f r u e => ?_
    split at e <;> cases e
    exact State.withPermission_answers (s.takeEnrol_answers l _ _ _ f)
  | setType l =>
    refine keeps_of_taking h fun s f r u e => ?_
    split at e <;> cases e
    exact State.withPermission_answers (s.takeSetType_answers l _ _ f)
  | forget l =>
    refine keeps_of_taking h fun s f r u e => ?_
    split at e <;> cases e
    exact State.withSlots_answers fun slots => State.withPermission_answers (s.takeForget_answers l slots f)
  | setLink l =>
    refine keeps_of_taking h fun s f r u e => ?_
    split at e <;> cases e
    exact State.withPermission_answers (s.takeSetLink_answers l _ _ _ f)
  | rigClear l =>
    refine keeps_of_taking h fun s f r u e => ?_
    split at e <;> cases e
    exact State.withPermission_answers ((LinksTold.of_links s.clearRig_links).answers f _ _)
  | keep l =>
    refine keeps_of_taking h fun s f r u e => ?_
    split at e <;> cases e
    exact (LinksTold.refl s).answers f _ _
  | readSlot l =>
    refine keeps_of_taking h fun s f r u e => ?_
    split at e
    · split at e <;> cases e
      · exact s.refuse_answers l f _
      · exact (LinksTold.of_links (by simp [State.evaluatedAll])).answers f _ _
    · cases e
  | readClaims l =>
    refine keeps_of_taking h fun s f r u e => ?_
    split at e
    · split at e <;> cases e
      · exact s.refuse_answers l f _
      · exact (LinksTold.of_links (s.evaluated_links _ _)).answers f _ _
    · cases e
  | readLine l =>
    refine keeps_of_taking h fun s f r u e => ?_
    split at e <;> cases e
    exact s.takeReadLine_answers l _ f
  | readType l =>
    refine keeps_of_taking h fun s f r u e => ?_
    split at e <;> cases e
    exact (LinksTold.refl s).answers f _ _
  | readPart l =>
    refine keeps_of_taking h fun s f r u e => ?_
    split at e <;> cases e
    exact (LinksTold.refl s).answers f _ _
  | schedulerPick ln => exact keeps_of_telling h fun s => .of_links (s.pick_links ln)
  | enrolFrameStart ln => exact keeps_of_telling h fun s => .of_links (s.startEnrolFrame_links ln)
  | lineFrameEnd ln => exact keeps_of_telling h fun s => .of_links (s.endLineFrame_links ln)
  | replyEnd ln reply => exact keeps_of_telling h fun s => s.endReply_told ln reply
  | replyWindowExpiry ln => exact keeps_of_telling h fun s => s.expireReply_told ln
  | lateCharacters ln => exact keeps_of_telling h fun s => .ite (.of_links rfl) (.refl s)
  | dropDone ln => exact keeps_of_telling h fun s => s.endDrop_told ln
  | callDone ln => exact keeps_of_telling h fun s => .of_links (s.openArbitration_links ln)
  | arbitrationEnd ln samples => exact keeps_of_telling h fun s => s.endArbitration_told ln samples
  | assignDone ln => exact keeps_of_telling h fun s => .of_links (s.endAssign_links ln)
  | capsReceived ln reply =>
    refine keeps_of_telling h fun s => ?_
    split
    · exact .refl s
    · split
      · exact .refl s
      · exact .ite (s.receiveCaps_told ln _ _ _) (.refl s)
  | capsWindowExpiry ln =>
    refine keeps_of_telling h fun s => ?_
    split
    · exact .refl s
    · exact .ite (s.capsFailed_told ln _) (.refl s)
  | capsFailure ln reply =>
    refine keeps_of_telling h fun s => ?_
    split
    · exact .refl s
    · split
      · exact .refl s
      · exact .ite (s.capsFailed_told ln _) (.refl s)

theorem step_keepsLinks (s t : State) (h : step s = .next t) : KeepsLinks s t := by
  unfold step at h
  split at h
  · rename_i c rest _
    exact exec_keepsLinks c { s with pending := rest } t h
  · cases h; exact ⟨id, id⟩

/-- Settles O55: each operation on a link's record keeps its promises, every other operation only tells the links of
something, and a step is one command or the passing of a microsecond. -/
theorem linksStaySound : Obligations.LinksStaySound := step_keepsLinks

end Sys2Proof.Machine
end

section
/-! PROOF. What each request row makes of the request in hand (R4, R5), and the refusals of the slot and permission
stages. -/

namespace Sys2Proof.Machine

/-! ### The taking of each request -/

/-- A row takes the request in hand on its link when the part runs. -/
theorem next_of_inHand {s : State} {l : Link} {f : Frame} {r : Request} (h : s.InHand l f r)
    (take : State → Frame → Request → Option State) :
    (.next (s.whenRunning fun s => s.takeInHand l (take s)) : Result) = .next ((take s f r).getD s) := by
  rw [State.whenRunning_of_running h.1, State.takeInHand_of_inHand h]

section
variable {s : State} {l : Link} {f : Frame} {set : SlotSet} {g : Group} {fade : Nat} {ln : LineNo}

theorem exec_seize (h : s.InHand l f (.seize set g)) :
    exec (.seize l) s = .next (s.withSlots l f set fun slots => s.takeSeize l g slots f) := next_of_inHand h _

theorem exec_release (h : s.InHand l f (.release set g fade)) :
    exec (.release l) s = .next (s.withSlots l f set fun slots => s.takeRelease l g slots fade f) := next_of_inHand h _

theorem exec_stepReplace {mode : Option Mode} {low : Option Nat} {steps : List StepFields}
    (h : s.InHand l f (.step set g .replace mode low steps)) :
    exec (.stepReplace l) s = .next (s.withSlots l f set fun slots =>
      s.stepOrRefuse { link := l, group := g, option := .replace, mode := mode, lowMark := low } slots steps f) :=
  next_of_inHand h _

theorem exec_stepAppend {mode : Option Mode} {low : Option Nat} {steps : List StepFields}
    (h : s.InHand l f (.step set g .append mode low steps)) :
    exec (.stepAppend l) s = .next (s.withSlots l f set fun slots =>
      s.stepOrRefuse { link := l, group := g, option := .append, mode := mode, lowMark := low } slots steps f) :=
  next_of_inHand h _

theorem exec_halt (h : s.InHand l f (.halt set g)) :
    exec (.halt l) s = .next (s.withSlots l f set fun slots => s.takeHalt l g slots f) := next_of_inHand h _

theorem exec_setMode {mode : Mode} {low : Nat} (h : s.InHand l f (.setMode set g mode low)) :
    exec (.setMode l) s = .next (s.withSlots l f set fun slots => s.takeSetMode l g slots mode low f) :=
  next_of_inHand h _

theorem exec_handoverAsk (h : s.InHand l f .handoverAsk) :
    exec (.handoverAsk l) s = .next (s.withPermission l f (s.isStandby l) (s.takeAsk l f)) := next_of_inHand h _

theorem exec_handoverDecline (h : s.InHand l f .handoverDecline) :
    exec (.handoverDecline l) s = .next (s.withPermission l f (s.isActive l) (s.takeDecline l f)) := next_of_inHand h _

theorem exec_handoverGive (h : s.InHand l f (.handoverGive fade)) :
    exec (.handoverGive l) s = .next (s.withPermission l f (s.mayGive l)
      ((s.swap (clampTime fade) .give).answer l f (takenStatus (outOfRange fade)) .none)) := next_of_inHand h _

theorem exec_overrideOn (h : s.InHand l f (.override true fade)) :
    exec (.overrideOn l) s = .next (s.withPermission l f (s.isStandby l) (s.takeOverride l true fade f)) :=
  next_of_inHand h _

theorem exec_overrideOff (h : s.InHand l f (.override false fade)) :
    exec (.overrideOff l) s = .next (s.withPermission l f (s.isStandby l) (s.takeOverride l false fade f)) :=
  next_of_inHand h _

theorem exec_setPair (h : s.InHand l f (.setPair fade)) :
    exec (.setPair l) s = .next (s.withPermission l f (s.isActive l)
      (({ s with pair := { s.pair with failoverFade := clampTime fade } }).answer l f
        (takenStatus (outOfRange fade)) .none)) := next_of_inHand h _

theorem exec_safeClear (h : s.InHand l f (.safeClear fade)) :
    exec (.safeClear l) s = .next (s.withPermission l f (s.isActive l) (s.takeSafeClear l fade f)) := next_of_inHand h _

theorem exec_setLine {x : LineSettings} (h : s.InHand l f (.setLine x)) :
    exec (.setLine l) s = .next (s.withPermission l f (s.isActive l) (s.takeSetLine l x f)) := next_of_inHand h _

theorem exec_enrolLineFull (h : s.InHand l f (.enrolLine ln true)) :
    exec (.enrolLineFull l) s =
      .next (s.withPermission l f (s.isActive l) (s.takeEnrol l ln .full .dropping f)) := next_of_inHand h _

theorem exec_enrolLineJoin (h : s.InHand l f (.enrolLine ln false)) :
    exec (.enrolLineJoin l) s =
      .next (s.withPermission l f (s.isActive l) (s.takeEnrol l ln .join .calling f)) := next_of_inHand h _

theorem exec_setType {code : BitVec 16} {m : Matrix} (h : s.InHand l f (.setType code m)) :
    exec (.setType l) s = .next (s.withPermission l f (s.isActive l) (s.takeSetType l code m f)) := next_of_inHand h _

theorem exec_forget (h : s.InHand l f (.forget set)) :
    exec (.forget l) s = .next (s.withSlots l f set fun slots =>
      s.withPermission l f (s.isActive l) (s.takeForget l slots f)) := next_of_inHand h _

theorem exec_setLink {target : Link} {limit : Nat} (h : s.InHand l f (.setLink target limit fade)) :
    exec (.setLink l) s =
      .next (s.withPermission l f (s.isActive l) (s.takeSetLink l target limit fade f)) := next_of_inHand h _

theorem exec_rigClear (h : s.InHand l f .rigClear) :
    exec (.rigClear l) s = .next (s.withPermission l f (s.isActive l) (s.clearRig.answer l f .ok .none)) :=
  next_of_inHand h _

theorem exec_keep (h : s.InHand l f .keep) :
    exec (.keep l) s = .next
      (s.answer l f .ok (.keep l (s.link l).silenceLimit (s.link l).lossFade (s.link l).notices.length)) :=
  next_of_inHand h _

/-- R5, R34: READ_SLOT is taken where its slot exists. -/
theorem exec_readSlot {k : Nat} {n : SlotNo} (h : s.InHand l f (.readSlot k)) (hn : slotOfNumber k = some n) :
    exec (.readSlot l) s = .next (s.takeReadSlot l n f) :=
  (next_of_inHand h _).trans (by simp only [hn, Option.getD_some])

theorem exec_readSlot_outside {k : Nat} (h : s.InHand l f (.readSlot k)) (hn : slotOfNumber k = none) :
    exec (.readSlot l) s = .next (s.refuse l f .badSlot) :=
  (next_of_inHand h _).trans (by simp only [hn, Option.getD_some])

/-- R5, R74: READ_CLAIMS is taken where its slot exists. -/
theorem exec_readClaims {k : Nat} {n : SlotNo} (h : s.InHand l f (.readClaims k g)) (hn : slotOfNumber k = some n) :
    exec (.readClaims l) s = .next (s.takeReadClaims l n g f) :=
  (next_of_inHand h _).trans (by simp only [hn, Option.getD_some])

theorem exec_readClaims_outside {k : Nat} (h : s.InHand l f (.readClaims k g)) (hn : slotOfNumber k = none) :
    exec (.readClaims l) s = .next (s.refuse l f .badSlot) :=
  (next_of_inHand h _).trans (by simp only [hn, Option.getD_some])

theorem exec_readLine (h : s.InHand l f (.readLine ln)) :
    exec (.readLine l) s = .next (s.takeReadLine l ln f) := next_of_inHand h _

theorem exec_readType {k : Fin 16} (h : s.InHand l f (.readType k)) :
    exec (.readType l) s = .next (s.answer l f .ok (s.typeData k)) := next_of_inHand h _

theorem exec_readPart (h : s.InHand l f .readPart) :
    exec (.readPart l) s = .next (s.answer l f .ok (.part s.now s.safety s.pair s.freeClaims s.freeSteps)) :=
  next_of_inHand h _

end

/-- R5: a frame in hand that makes no request is answered BAD_REQUEST. -/
theorem exec_unknownKind {s : State} {l : Link} {f : Frame} (hr : s.inReset = false) (hf : (s.link l).inHand = some f)
    (h : f.request = none) : exec (.unknownKind l) s = .next (s.refuse l f .badRequest) := by
  show (.next (s.whenRunning _) : Result) = _
  rw [State.whenRunning_of_running hr]
  simp [hf, h]

/-- Settles O15: KEEP's taking is its answer. -/
theorem keepReportsItsLink : Obligations.KeepReportsItsLink := fun s l f h =>
  ⟨_, exec_keep h, s.answer_answeredOnly l f _ _⟩

/-! ### The slot stage (R5) -/

theorem slotOfNumber_eq_none {k : Nat} : slotOfNumber k = none ↔ 192 ≤ k := by
  unfold slotOfNumber; split <;> simp <;> omega

theorem mapM_slotOfNumber_eq_none {ks : List Nat} : ks.mapM slotOfNumber = none ↔ ∃ k ∈ ks, 192 ≤ k := by
  induction ks with
  | nil => simp
  | cons k rest ih =>
    have split_off : (∃ j ∈ k :: rest, 192 ≤ j) ↔ slotOfNumber k = none ∨ rest.mapM slotOfNumber = none := by
      simp only [List.mem_cons, exists_eq_or_imp, ih, slotOfNumber_eq_none]
    rw [split_off, List.mapM_cons]
    cases slotOfNumber k <;> cases rest.mapM slotOfNumber <;> simp

theorem SlotSet.slots_eq_none {set : SlotSet} : set.slots = none ↔ ∃ k ∈ set.numbers, 192 ≤ k := by
  rw [SlotSet.slots, Option.map_eq_none_iff, mapM_slotOfNumber_eq_none]

theorem State.withSlots_of_none {s : State} {l : Link} {f : Frame} {set : SlotSet} (h : set.slots = none)
    (go : List SlotNo → State) : s.withSlots l f set go = s.refuse l f .badSlot := by
  simp only [State.withSlots, h]

theorem State.withSlots_of_some {s : State} {l : Link} {f : Frame} {set : SlotSet} {slots : List SlotNo}
    (h : set.slots = some slots) (go : List SlotNo → State) : s.withSlots l f set go = go slots := by
  simp only [State.withSlots, h]

/-- A row whose taking is a refusal answers it with nothing else changed. -/
theorem refused_of_exec {c : Instr} {s u : State} {l : Link} {f : Frame} {x : Status} (h : exec c s = .next u)
    (hu : u = s.refuse l f x) : ∃ t, exec c s = .next t ∧ AnsweredOnly s t l f x .none :=
  ⟨u, h, by rw [hu]; exact s.refuse_answeredOnly l f x⟩

/-- Settles O12: the slot stage of a set fails exactly on a number that is no slot's, and every row that has a slot
stage refuses there. -/
theorem slotsOutsideAreRefused : Obligations.SlotsOutsideAreRefused := by
  refine ⟨fun set => SlotSet.slots_eq_none, fun set slots h => ⟨SlotSet.slots_nodup h, SlotSet.mem_slots h⟩, ?_⟩
  intro s l f set g outside
  have number : ∀ {n : Nat}, 192 ≤ n → slotOfNumber n = none := slotOfNumber_eq_none.mpr
  exact
    ⟨fun h => refused_of_exec (exec_seize h) (State.withSlots_of_none outside _),
     fun _ h => refused_of_exec (exec_release h) (State.withSlots_of_none outside _),
     fun _ _ _ h => refused_of_exec (exec_stepReplace h) (State.withSlots_of_none outside _),
     fun _ _ _ h => refused_of_exec (exec_stepAppend h) (State.withSlots_of_none outside _),
     fun h => refused_of_exec (exec_halt h) (State.withSlots_of_none outside _),
     fun _ _ h => refused_of_exec (exec_setMode h) (State.withSlots_of_none outside _),
     fun h => refused_of_exec (exec_forget h) (State.withSlots_of_none outside _),
     fun _ hn h => refused_of_exec (exec_readSlot_outside h (number hn)) rfl,
     fun _ hn h => refused_of_exec (exec_readClaims_outside h (number hn)) rfl⟩

/-! ### The permission stage (R16, R84, R88) -/

theorem State.withPermission_of_false {s : State} {l : Link} {f : Frame} {b : Bool} (h : b = false) (go : State) :
    s.withPermission l f b go = s.refuse l f .notPermitted := by
  simp [State.withPermission, h]

theorem State.withPermission_of_true {s : State} {l : Link} {f : Frame} {b : Bool} (h : b = true) (go : State) :
    s.withPermission l f b go = go := by
  simp [State.withPermission, h]

theorem State.isActive_eq_false {s : State} {l : Link} : s.isActive l = false ↔ l ≠ s.pair.activeLink := by
  simp [State.isActive]

theorem State.isStandby_eq_false {s : State} {l : Link} : s.isStandby l = false ↔ l ≠ s.pair.standbyLink := by
  simp [State.isStandby]

theorem State.mayGive_eq_false {s : State} {l : Link} :
    s.mayGive l = false ↔ l ≠ s.pair.activeLink ∨ (s.link s.pair.standbyLink).state ≠ .live := by
  simp [State.mayGive, State.isActive, Decidable.or_iff_not_imp_left]

/-- Settles O13: every row with a permission stage refuses a link that has not the role it asks for. -/
theorem requestsNeedTheirRole : Obligations.RequestsNeedTheirRole := by
  refine ⟨fun s l f other => ?_, fun s l f => ⟨fun other => ?_, fun other => ?_, fun barred fade h => ?_⟩⟩
  · have inactive := State.isActive_eq_false.mpr other
    exact
      ⟨fun _ h => refused_of_exec (exec_setLine h) (State.withPermission_of_false inactive _),
       fun _ h => refused_of_exec (exec_enrolLineFull h) (State.withPermission_of_false inactive _),
       fun _ h => refused_of_exec (exec_enrolLineJoin h) (State.withPermission_of_false inactive _),
       fun _ _ h => refused_of_exec (exec_setType h) (State.withPermission_of_false inactive _),
       fun _ _ inside h => refused_of_exec (exec_forget h)
         ((State.withSlots_of_some inside _).trans (State.withPermission_of_false inactive _)),
       fun _ _ _ h => refused_of_exec (exec_setLink h) (State.withPermission_of_false inactive _),
       fun _ h => refused_of_exec (exec_setPair h) (State.withPermission_of_false inactive _),
       fun h => refused_of_exec (exec_rigClear h) (State.withPermission_of_false inactive _)⟩
  · have not_standby := State.isStandby_eq_false.mpr other
    exact
      ⟨fun h => refused_of_exec (exec_handoverAsk h) (State.withPermission_of_false not_standby _),
       fun _ h => refused_of_exec (exec_overrideOn h) (State.withPermission_of_false not_standby _),
       fun _ h => refused_of_exec (exec_overrideOff h) (State.withPermission_of_false not_standby _)⟩
  · have inactive := State.isActive_eq_false.mpr other
    exact
      ⟨fun h => refused_of_exec (exec_handoverDecline h) (State.withPermission_of_false inactive _),
       fun _ h => refused_of_exec (exec_safeClear h) (State.withPermission_of_false inactive _)⟩
  · exact refused_of_exec (exec_handoverGive h) (State.withPermission_of_false (State.mayGive_eq_false.mpr barred) _)

/-! ### Reports (R18, R31, R149) -/

/-- An answer leaves the notices of every link, its own link among them. -/
theorem State.answer_hears (u : State) (l k : Link) (f : Frame) (x : Status) (d : AnswerData) {r : LinkRec}
    {ns : List Notice} (h : Hears r (u.link k) ns) : Hears r ((u.answer l f x d).link k) ns := by
  rw [State.answer_link]; split
  · rename_i e; subst e; exact h
  · exact h

/-- An answer placed in a link's record leaves what was told of it, and the rest of the record. -/
theorem State.answer_link_kept (u : State) (l k : Link) (f : Frame) (x : Status) (d : AnswerData) {r : LinkRec}
    (h : u.link k = { r with notices := (u.link k).notices, noticeOverflow := (u.link k).noticeOverflow }) :
    (u.answer l f x d).link k =
      { r with
        notices := ((u.answer l f x d).link k).notices
        noticeOverflow := ((u.answer l f x d).link k).noticeOverflow
        inHand := (if k = l then (u.answer l f x d).link k else r).inHand
        answer := (if k = l then (u.answer l f x d).link k else r).answer
        requestOverrun := (if k = l then (u.answer l f x d).link k else r).requestOverrun } := by
  rw [State.answer_link]
  by_cases e : k = l
  · subst e; rw [if_pos rfl, h]; simp
  · simp only [if_neg e]; exact h

/-- A taking that tells the links of its effects and then places its answer keeps the rest of every link. -/
theorem LinksHear.answer_kept {s u : State} (h : LinksHear s u) (l : Link) (f : Frame) (x : Status) (d : AnswerData) :
    LinksKept s (u.answer l f x d) l := fun k => u.answer_link_kept l k f x d (h k)

theorem LineConditionSet.put_wrongAddress (c : LineConditionSet) :
    c.put .wrongAddress false = { c with wrongAddress := false } := rfl

theorem State.typeUsers_eq (s : State) (k : Fin 16) :
    s.typeUsers k = (allSlots.filter (fun n => decide ((s.slot n).fixture.bind (·.typeIndex) = some k))).length := by
  unfold State.typeUsers State.boundSlots
  rw [List.filter_filter]
  congr 2
  funext n
  cases (s.slot n).fixture <;> simp

theorem State.typeData_eq (s : State) (k : Fin 16) :
    s.typeData k = .type (s.typeEntry k).isSome (((s.typeEntry k).map (·.code)).getD 0)
      (((s.typeEntry k).map (·.matrix)).getD defaultMatrix)
      (allSlots.filter (fun n => decide ((s.slot n).fixture.bind (·.typeIndex) = some k))).length := by
  rw [← State.typeUsers_eq]
  unfold State.typeData
  cases s.typeEntry k <;> rfl

/-- R149, R152: READ_LINE changes nothing but WRONG_ADDRESS and the notices of its going. -/
theorem State.takeReadLine_spec (s : State) (l : Link) (ln : LineNo) (f : Frame) :
    let t := s.takeReadLine l ln f
    LinksKept s t l ∧ t = { s with links := t.links, lines := t.lines } ∧
      (∀ k, k ≠ ln → t.line k = s.line k) ∧
      t.line ln = { s.line ln with conditions := { (s.line ln).conditions with wrongAddress := false } } ∧
      (∀ k, Hears (s.link k) (t.link k)
        (if (s.line ln).conditions.wrongAddress then [.lineCondition ln .wrongAddress false] else [])) ∧
      Answered s t l f .ok (.line (s.line ln) (s.onlineOf ln).length (s.missingOf ln).length) := by
  have told := s.putCondition_told ln .wrongAddress false
  refine ⟨told.hear.answer_kept l f _ _, ?_, fun k hk => ?_, ?_, fun k => ?_, ?_⟩
  · rw [State.takeReadLine, State.answer, State.putCondition_frame]; rfl
  · rw [State.takeReadLine, State.answer_line, State.putCondition_line, if_neg hk]
  · rw [State.takeReadLine, State.answer_line, State.putCondition_line, if_pos rfl,
      LineConditionSet.put_wrongAddress]
  · refine State.answer_hears _ l k f _ _ ?_
    have heard := told.hears k
    cases h : (s.line ln).conditions.wrongAddress <;> simpa [LineConditionSet.has, h] using heard
  · exact State.answer_answered s _ l f _ _ (by rw [told.hear l])

/-- Settles O43, each report by its taking. -/
theorem lineTypeAndPartAreReported : Obligations.LineTypeAndPartAreReported := fun s l f =>
  ⟨fun ln h => ⟨_, exec_readLine h, s.takeReadLine_spec l ln f⟩,
   fun k h => ⟨_, exec_readType h, by rw [State.typeData_eq]; exact s.answer_answeredOnly l f _ _⟩,
   fun h => ⟨_, exec_readPart h, s.answer_answeredOnly l f _ _⟩⟩

end Sys2Proof.Machine
end

section
/-! PROOF. The part at the moment it leaves power-on reset: what every block holds, and that it holds every promise. -/

namespace Sys2Proof.Machine

/-! ### What each block holds -/

/-- R24, R26: every slot is FREE and parked. -/
theorem State.slot_of_reset (n : SlotNo) : State.reset.slot n = Slot.reset := by
  simp [State.reset, State.slot]

/-- R28: every type entry is unused. -/
theorem State.typeEntry_of_reset (k : Fin 16) : State.reset.typeEntry k = none := by
  simp [State.reset, State.typeEntry]

/-- R37, R135: every line begins a FULL enrolment. -/
theorem State.line_of_reset (ln : LineNo) : State.reset.line ln = LineRec.reset := by
  simp [State.reset, State.line]

/-- Section 1.6 of Control Links: a feed has a loss fade of 2000 ms, and a console none. -/
theorem State.link_of_reset (l : Link) : State.reset.link l = LinkRec.reset (if l.tier = 2 then 0 else 2000) := by
  cases l <;> rfl

/-- Settles O3: the values are those of the reset records. -/
theorem resetValues : Obligations.ResetValues := by
  refine ⟨by decide, fun l => ?_, rfl, rfl, rfl, fun n => ?_, State.typeEntry_of_reset, rfl, rfl, fun ln => ?_⟩
  · rw [State.link_of_reset]; exact ⟨rfl, rfl, rfl, rfl, rfl, rfl, rfl, rfl, rfl⟩
  · rw [State.slot_of_reset]; exact ⟨rfl, rfl, rfl, rfl⟩
  · rw [State.line_of_reset]
    exact ⟨rfl, rfl, rfl, rfl, rfl, rfl, rfl, rfl, rfl, rfl, rfl, rfl, rfl, rfl⟩

/-! ### Every promise -/

theorem State.fixture_of_reset (n : SlotNo) : (State.reset.slot n).fixture = none := by
  rw [State.slot_of_reset]; rfl

/-- R37, R135, R137: the line record of a line that begins its FULL enrolment. -/
theorem LineRec.reset_sound : LineRec.reset.Sound where
  window_range := ⟨by decide, by decide⟩
  refresh_range := ⟨by decide, by decide⟩
  join_range := ⟨by decide, by decide⟩
  off_iff := by decide
  pending_waits h := nomatch h
  resting h := by rcases h with h | h <;> cases h
  sending h := nomatch h
  awaiting h := nomatch h
  enrolling _ := ⟨by decide, fun _ h => nomatch h⟩
  at_rest h := nomatch h
  at_work _ := rfl
  assigning _ _ _ h := nomatch h
  calling _ h := nomatch h
  dropping _ _ h := nomatch h
  offered_in_assigning _ := rfl
  offered_range _ h := nomatch h

theorem State.reset_ratesSound : State.reset.RatesSound := fun ln => by
  rw [State.line_of_reset]
  exact ⟨le_rfl, fun n f h => (by rw [State.fixture_of_reset] at h; cases h), .inl rfl⟩

theorem State.reset_linesSound : State.reset.LinesSound := fun _ ln => by
  rw [State.line_of_reset]; exact LineRec.reset_sound

theorem State.reset_tableSound : State.reset.TableSound where
  in_range n f h := by rw [State.fixture_of_reset] at h; cases h
  ids_differ n m f g h := by rw [State.fixture_of_reset] at h; cases h
  addresses_differ n m f g h := by rw [State.fixture_of_reset] at h; cases h

theorem State.reset_offersSound : State.reset.OffersSound := fun ln x a h => by
  rw [State.line_of_reset] at h; cases h

theorem State.reset_boundsSound : State.reset.BoundsSound := fun ln => by
  rw [State.line_of_reset]
  exact ⟨Nat.zero_le _, fun _ => ⟨Nat.zero_le _, fun _ => rfl, fun _ _ _ => rfl⟩⟩

/-- A state with no claim and no expiry entry keeps every promise about the pools. -/
theorem State.poolsSound_of_empty {s : State} (hc : s.claims = []) (he : s.expiryList = []) : s.PoolsSound where
  claims_fit := by simp [hc]
  numbers_differ := by simp [hc]
  numbers_fit := by simp [hc]
  one_per_link := by simp [hc]
  queues_fit := by simp [hc]
  orders_differ := by simp [hc]
  orders_past := by simp [hc]
  queue_behind_running := by simp [hc]
  steps_fit := by simp [State.stepRecords, hc]
  entries_differ := by simp [he]
  entry_runs := by simp [he]
  running_has_entry := by simp [hc]
  settled := by simp [hc]

/-- R24: the values at which a slot is parked fit their groups. -/
theorem Slot.reset_parked_fits (g : Group) : Value.Fits g (Slot.reset.parked.get g) := by
  cases g <;> exact ⟨rfl, by decide⟩

theorem State.reset_valuesSound : State.reset.ValuesSound where
  parked_fits n g := by rw [State.slot_of_reset]; exact Slot.reset_parked_fits g
  fade_fits n g x h := by rw [State.slot_of_reset] at h; cases g <;> cases h
  claim_fits c h := nomatch h
  failover_fits := by decide
  loss_fits l := (State.reset_linksSound l).fade_range

/-- Settles O60, promise by promise. -/
theorem resetIsSound : Obligations.ResetIsSound where
  links := State.reset_linksSound
  lossFades := State.reset_lossFadesSound
  safety := by unfold State.SafetySound; decide
  rates := State.reset_ratesSound
  lines := State.reset_linesSound
  table := State.reset_tableSound
  offers := State.reset_offersSound
  bounds := State.reset_boundsSound
  pools := State.poolsSound_of_empty rfl rfl
  records := ⟨List.nodup_nil, fun _ h => nomatch h⟩
  expiries := List.Pairwise.nil
  roles _ h := nomatch h
  values := State.reset_valuesSound

end Sys2Proof.Machine
end

section
/-! PROOF. Control frames as they are coded (R1, R2), and the fields of R159 as they are read and written: each reader
of Operands gives back exactly what the writer of the same field has written. -/

namespace Sys2Proof.Machine

/-! ### Frames (R1, R2) -/

/-- A run of characters with good stop bits, by its bytes. -/
theorem eq_asCharacters {chars : List RxChar} {bytes : List Byte} :
    chars = asCharacters bytes ↔ chars.map (·.byte) = bytes ∧ chars.any (fun c => !c.stopOk) = false := by
  induction chars generalizing bytes with
  | nil => cases bytes <;> simp [asCharacters]
  | cons c rest ih =>
    cases bytes with
    | nil => simp [asCharacters]
    | cons b bs =>
      have head : c = { byte := b, stopOk := true } ↔ c.byte = b ∧ (!c.stopOk) = false := by cases c; simp
      have tail := @ih bs
      simp only [asCharacters] at tail
      simp only [asCharacters, List.map_cons, List.cons.injEq, List.any_cons, Bool.or_eq_false_iff, head, tail]
      tauto

/-- R1: what a run of characters leaves in an empty assembler. -/
theorem Assembler.foldl_take_empty (chars : List RxChar) :
    chars.foldl Assembler.take Assembler.empty =
      { stored := (chars.map (·.byte)).take 256, counted := chars.length
        broken := chars.any (fun c => !c.stopOk) } := by
  rw [Assembler.foldl_take chars Assembler.empty rfl]
  simp [Assembler.empty]

/-- R2: the tests of a good frame, and the frame they give. -/
theorem Assembler.goodFrame_eq_some {a : Assembler} {f : Frame} :
    a.goodFrame = some f ↔
      a.broken = false ∧ a.counted ≤ 256 ∧ ∃ (length : Byte) (rest : List Byte),
        a.stored = length :: f.tag :: f.kind :: rest ∧ 2 ≤ length.toNat ∧ length.toNat ≤ 250 ∧
          a.counted = length.toNat + 3 ∧
          bytes16 (crc16 (a.stored.take (length.toNat + 1))).toNat = a.stored.drop (length.toNat + 1) ∧
          f.payload = rest.take (length.toNat - 2) := by
  obtain ⟨stored, counted, broken⟩ := a
  obtain ⟨tag, kind, payload⟩ := f
  unfold Assembler.goodFrame
  split
  · rename_i length tag' kind' rest hs
    dsimp only at hs
    subst hs
    rw [Option.ite_none_right_eq_some]
    constructor
    · rintro ⟨⟨h1, h2, h3, h4, h5, h6⟩, e⟩
      cases e
      exact ⟨h1, h2, length, rest, rfl, h3, h4, h5, h6, rfl⟩
    · rintro ⟨h1, h2, length', rest', e, h3, h4, h5, h6, h7⟩
      cases e
      dsimp only at h7
      exact ⟨⟨h1, h2, h3, h4, h5, h6⟩, by rw [h7]⟩
  · rename_i no_head
    constructor
    · exact fun h => nomatch h
    · rintro ⟨-, -, length, rest, e, -⟩
      exact absurd e (no_head _ _ _ _)

/-- R2: bytes with a length byte in range, as many as it says, with the right check, are the frame as written. -/
theorem controlFrame_of_checked {length tag kind : Byte} {rest : List Byte} (h2 : 2 ≤ length.toNat)
    (hl : rest.length = length.toNat)
    (check : bytes16 (crc16 ((length :: tag :: kind :: rest).take (length.toNat + 1))).toNat =
      (length :: tag :: kind :: rest).drop (length.toNat + 1)) :
    length :: tag :: kind :: rest = controlFrame tag kind (rest.take (length.toNat - 2)) := by
  have body : (length :: tag :: kind :: rest).take (length.toNat + 1) =
      length :: tag :: kind :: rest.take (length.toNat - 2) := by
    obtain ⟨n, hn⟩ : ∃ n, length.toNat = n + 2 := ⟨length.toNat - 2, by omega⟩
    rw [hn]; rfl
  have size : BitVec.ofNat 8 ((rest.take (length.toNat - 2)).length + 2) = length := by
    rw [List.length_take, hl, show min (length.toNat - 2) length.toNat + 2 = length.toNat by omega]
    simp
  rw [controlFrame, size, ← body, check, List.take_append_drop]

/-- R2: the bytes of a frame as written, from its length byte on. -/
theorem controlFrame_eq_cons (tag kind : Byte) (payload : List Byte) :
    controlFrame tag kind payload =
      BitVec.ofNat 8 (payload.length + 2) :: tag :: kind ::
        (payload ++ bytes16 (crc16 (BitVec.ofNat 8 (payload.length + 2) :: tag :: kind :: payload)).toNat) := rfl

theorem controlFrame_length (tag kind : Byte) (payload : List Byte) :
    (controlFrame tag kind payload).length = payload.length + 5 := by
  simp [controlFrame_eq_cons, bytes16_length]

/-- Settles O6: a good frame's bytes are its body and the check of its body, which is how they are written. -/
theorem controlFramesAreReadAsWritten : Obligations.ControlFramesAreReadAsWritten := by
  intro chars f
  rw [Assembler.foldl_take_empty, Assembler.goodFrame_eq_some, eq_asCharacters]
  dsimp only
  constructor
  · rintro ⟨stops, short, length, rest, stored, h2, h250, count, check, payload⟩
    have whole : (chars.map (·.byte)).take 256 = chars.map (·.byte) :=
      List.take_of_length_le (by rwa [List.length_map])
    rw [whole] at stored check
    have size : rest.length = length.toNat := by
      have := congrArg List.length stored
      simp only [List.length_map, List.length_cons] at this
      omega
    rw [stored] at check
    rw [stored, payload]
    exact ⟨⟨controlFrame_of_checked h2 size check, stops⟩, by rw [List.length_take]; omega⟩
  · rintro ⟨⟨bytes, stops⟩, small⟩
    have count : chars.length = f.payload.length + 5 := by
      rw [← controlFrame_length f.tag f.kind, ← bytes, List.length_map]
    have length : (BitVec.ofNat 8 (f.payload.length + 2)).toNat = f.payload.length + 2 := by
      rw [BitVec.toNat_ofNat]; omega
    rw [bytes, List.take_of_length_le (by rw [controlFrame_length]; omega)]
    refine ⟨stops, by omega, _, _, controlFrame_eq_cons .., ?_⟩
    rw [length]
    refine ⟨by omega, by omega, count, ?_, ?_⟩
    · simp [controlFrame]
    · simp

/-! ### Single fields (R159) -/

/-- A reader gives exactly the values that fit, each from the bytes that its writer gives for it. -/
def Reads {α : Type} (read : List Byte → Option (α × List Byte)) (write : α → List Byte) (fits : α → Prop) : Prop :=
  ∀ (bytes : List Byte) (v : α) (rest : List Byte), read bytes = some (v, rest) ↔ fits v ∧ bytes = write v ++ rest

theorem toNat_eq_iff {b : Byte} {n : Nat} : b.toNat = n ↔ n < 256 ∧ b = BitVec.ofNat 8 n := by
  constructor
  · rintro rfl; exact ⟨b.isLt, by simp⟩
  · rintro ⟨h, rfl⟩; exact (BitVec.toNat_ofNat ..).trans (Nat.mod_eq_of_lt h)

theorem readByte_reads : Reads readByte byteOf (· < 256) := by
  intro bytes v rest
  constructor
  · intro h
    cases bytes with
    | nil => cases h
    | cons b tail =>
      cases h
      exact ⟨b.isLt, by simp [byteOf]⟩
  · rintro ⟨h, rfl⟩; exact readByte_byteOf h rest

theorem bytes16_number16 (b1 b2 : Byte) : bytes16 (number16 b1 b2) = [b1, b2] := by
  have h1 := b1.isLt
  have h2 := b2.isLt
  have high : (b1.toNat * 256 + b2.toNat) / 256 = b1.toNat := by omega
  have low : BitVec.ofNat 8 (b1.toNat * 256 + b2.toNat) = b2 := by
    apply BitVec.eq_of_toNat_eq; rw [BitVec.toNat_ofNat]; omega
  simp [bytes16, number16, high, low]

theorem number16_lt (b1 b2 : Byte) : number16 b1 b2 < 65536 := by
  have h1 := b1.isLt
  have h2 := b2.isLt
  unfold number16; omega

theorem bytes16_mod (n : Nat) : bytes16 (n % 65536) = bytes16 n := by
  have high : n % 65536 / 256 % 256 = n / 256 % 256 := by omega
  have low : n % 65536 % 256 = n % 256 := by omega
  simp only [bytes16, List.cons.injEq, and_true]
  constructor <;> apply BitVec.eq_of_toNat_eq <;> simp only [BitVec.toNat_ofNat] <;> assumption

theorem readWord_reads : Reads readWord bytes16 FitsWord := by
  intro bytes v rest
  constructor
  · intro h
    match bytes, h with
    | b1 :: b2 :: tail, h =>
      cases h
      exact ⟨number16_lt b1 b2, by rw [bytes16_number16]; rfl⟩
  · rintro ⟨h, rfl⟩; exact readWord_bytes16 h rest

theorem readLong_reads : Reads readLong bytes32 FitsLong := by
  intro bytes v rest
  constructor
  · intro h
    match bytes, h with
    | b1 :: b2 :: b3 :: b4 :: tail, h =>
      cases h
      have h1 := number16_lt b1 b2
      have h2 := number16_lt b3 b4
      refine ⟨by unfold FitsLong; omega, ?_⟩
      have high : (number16 b1 b2 * 65536 + number16 b3 b4) / 65536 = number16 b1 b2 := by omega
      have low : bytes16 (number16 b1 b2 * 65536 + number16 b3 b4) = bytes16 (number16 b3 b4) := by
        rw [← bytes16_mod, Nat.mul_comm, Nat.mul_add_mod, Nat.mod_eq_of_lt h2]
      rw [bytes32, high, low, bytes16_number16, bytes16_number16]
      rfl
  · rintro ⟨h, rfl⟩; exact readLong_bytes32 h rest

theorem readWords_reads (k : Nat) : Reads (readWords k) valueBytes (fun v => v.length = k ∧ ∀ x ∈ v, FitsWord x) := by
  induction k with
  | zero =>
    intro bytes v rest
    cases v <;> simp [readWords, valueBytes]
  | succ k ih =>
    intro bytes v rest
    simp only [readWords, Option.bind_eq_bind, Option.bind_eq_some_iff, Prod.exists, readWord_reads _ _ _, ih _ _ _,
      Option.some.injEq, Prod.mk.injEq]
    constructor
    · rintro ⟨x, _, ⟨hx, rfl⟩, xs, _, ⟨⟨hl, hf⟩, rfl⟩, rfl, rfl⟩
      exact ⟨⟨by rw [List.length_cons, hl], List.forall_mem_cons.mpr ⟨hx, hf⟩⟩, by simp [valueBytes]⟩
    · rintro ⟨⟨hl, hf⟩, rfl⟩
      cases v with
      | nil => cases hl
      | cons x xs =>
        obtain ⟨hx, hf⟩ := List.forall_mem_cons.mp hf
        exact ⟨x, valueBytes xs ++ rest, ⟨hx, by simp [valueBytes]⟩, xs, rest,
          ⟨⟨Nat.succ.inj hl, hf⟩, rfl⟩, rfl, rfl⟩

/-- A byte that carries a code. -/
theorem reads_coded {α : Type} {decode : Nat → Option α} {code : α → Nat}
    (hd : ∀ b v, decode b = some v ↔ b = code v) (hc : ∀ v, code v < 256) :
    Reads (fun bytes => do let (b, rest) ← readByte bytes; let v ← decode b; some (v, rest))
      (fun v => byteOf (code v)) (fun _ => True) := by
  intro bytes v rest
  simp only [Option.bind_eq_bind, Option.bind_eq_some_iff, Prod.exists, readByte_reads _ _ _, hd, Option.some.injEq,
    Prod.mk.injEq, true_and]
  constructor
  · rintro ⟨_, _, ⟨-, rfl⟩, _, rfl, rfl, rfl⟩; rfl
  · rintro rfl; exact ⟨_, _, ⟨hc v, rfl⟩, v, rfl, rfl, rfl⟩

theorem groupCode_lt (g : Group) : groupCode g < 256 := by cases g <;> decide
theorem Mode.code_lt (m : Mode) : m.code < 256 := by cases m <;> decide

theorem readGroup_reads : Reads readGroup (fun g => byteOf (groupCode g)) (fun _ => True) :=
  reads_coded (fun _ _ => groupOfCode_eq_some) groupCode_lt

theorem readMode_reads : Reads readMode (fun m => byteOf m.code) (fun _ => True) :=
  reads_coded (fun _ _ => modeOfCode_eq_some) Mode.code_lt

theorem readLowMark_reads : Reads readLowMark byteOf (· ≤ 7) := by
  intro bytes v rest
  simp only [readLowMark, Option.bind_eq_bind, Option.bind_eq_some_iff, Prod.exists, readByte_reads _ _ _,
    Option.ite_none_right_eq_some, Option.some.injEq, Prod.mk.injEq]
  constructor
  · rintro ⟨_, _, ⟨-, rfl⟩, h, rfl, rfl⟩; exact ⟨h, rfl⟩
  · rintro ⟨h, rfl⟩; exact ⟨v, rest, ⟨by omega, rfl⟩, h, rfl, rfl⟩

/-! ### Slot sets (R159) -/

theorem flatMap_byteOf (l : List Nat) : l.flatMap byteOf = l.map (BitVec.ofNat 8) := by
  induction l with
  | nil => rfl
  | cons n rest ih => simp [byteOf, ih]

theorem map_toNat_map_ofNat {l : List Nat} (h : ∀ n ∈ l, n < 256) :
    (l.map (BitVec.ofNat 8)).map BitVec.toNat = l := by
  rw [List.map_map, List.map_congr_left (g := id), List.map_id]
  exact fun n hn => (BitVec.toNat_ofNat ..).trans (Nat.mod_eq_of_lt (h n hn))

theorem map_ofNat_map_toNat (l : List Byte) : (l.map BitVec.toNat).map (BitVec.ofNat 8) = l := by
  rw [List.map_map, List.map_congr_left (g := id), List.map_id]
  exact fun b _ => by simp

theorem readSlotSet_reads : Reads readSlotSet SlotSet.bytes SlotSet.Fits := by
  intro bytes set rest
  constructor
  · intro h
    unfold readSlotSet at h
    split at h
    · rename_i form a tail
      split at h
      · rename_i hform
        subst hform
        split at h
        · rename_i count _
          rw [Option.ite_none_right_eq_some] at h
          obtain ⟨hc, e⟩ := h
          cases e
          exact ⟨⟨a.isLt, hc⟩, by simp [SlotSet.bytes, byteOf]⟩
        · cases h
      · split at h
        · rename_i hform
          subst hform
          rw [Option.ite_none_right_eq_some] at h
          obtain ⟨⟨h1, h24, hlen⟩, e⟩ := h
          cases e
          have length : ((tail.take a.toNat).map BitVec.toNat).length = a.toNat := by
            rw [List.length_map, List.length_take]; omega
          refine ⟨⟨by rw [length]; exact h1, by rw [length]; exact h24, fun n hn => ?_⟩, ?_⟩
          · obtain ⟨b, -, rfl⟩ := List.mem_map.mp hn; exact b.isLt
          · rw [SlotSet.bytes, length, flatMap_byteOf, map_ofNat_map_toNat]
            simp [byteOf]
        · cases h
    · cases h
  · rintro ⟨fits, rfl⟩
    cases set with
    | range first count =>
      obtain ⟨hf, h1, h192⟩ := fits
      have hc : count % 256 = count := Nat.mod_eq_of_lt (by omega)
      have hf : first % 256 = first := Nat.mod_eq_of_lt hf
      simp [SlotSet.bytes, byteOf, readSlotSet, hc, hf, h1, h192]
    | list slots =>
      obtain ⟨h1, h24, hn⟩ := fits
      have hl : slots.length % 256 = slots.length := Nat.mod_eq_of_lt (by omega)
      have h1' : 1 ≤ slots.length ∧ slots.length ≤ 24 := ⟨h1, h24⟩
      have back := map_toNat_map_ofNat hn
      rw [SlotSet.bytes, flatMap_byteOf]
      simp [byteOf, readSlotSet, hl, h1', back]

/-! ### Steps (R92, R159) -/

theorem Curve.code_lt (c : Curve) : c.code < 128 := by cases c <;> decide

/-- The curve and tie of a step share a byte. -/
theorem curve_and_tie {b : Nat} {c : Curve} {tie : Bool} (hb : b < 256) :
    (curveOfCode (b % 128) = some c ∧ decide (128 ≤ b) = tie) ↔ b = c.code + if tie then 128 else 0 := by
  have := c.code_lt
  rw [curveOfCode_eq_some]
  cases tie
  · simp only [decide_eq_false_iff_not, Bool.false_eq_true, if_false]; omega
  · simp only [decide_eq_true_eq, if_true]; omega

theorem readStep_reads (g : Group) : Reads (readStep g) StepFields.bytes (StepFields.Fits g) := by
  intro bytes x rest
  simp only [readStep, Option.bind_eq_bind, Option.bind_eq_some_iff, Prod.exists, readWords_reads _ _ _ _,
    readLong_reads _ _ _, readByte_reads _ _ _, Option.some.injEq, Prod.mk.injEq]
  constructor
  · rintro ⟨target, _, ⟨⟨hl, ht⟩, rfl⟩, duration, _, ⟨hd, rfl⟩, dwell, _, ⟨hw, rfl⟩, b, _, ⟨hb, rfl⟩, c, hc, rfl, rfl⟩
    refine ⟨⟨hl, ht, hd, hw⟩, ?_⟩
    have byte := (curve_and_tie (tie := decide (128 ≤ b)) hb).mp ⟨hc, rfl⟩
    simp only [StepFields.bytes, List.append_assoc, ← byte]
  · rintro ⟨⟨hl, ht, hd, hw⟩, rfl⟩
    have lt : x.curve.code + (if x.tie then 128 else 0) < 256 := by
      have := x.curve.code_lt; split <;> omega
    obtain ⟨hc, htie⟩ := (curve_and_tie lt).mpr rfl
    exact ⟨x.target, _, ⟨⟨hl, ht⟩, by simp only [StepFields.bytes, List.append_assoc]⟩, x.duration, _, ⟨hd, rfl⟩,
      x.dwell, _, ⟨hw, rfl⟩, _, _, ⟨lt, rfl⟩, x.curve, hc, by rw [htie], rfl⟩

theorem readSteps_reads (g : Group) (k : Nat) :
    Reads (readSteps g k) (fun xs => xs.flatMap StepFields.bytes) (fun xs => xs.length = k ∧ ∀ x ∈ xs, x.Fits g) := by
  induction k with
  | zero =>
    intro bytes xs rest
    cases xs <;> simp [readSteps]
  | succ k ih =>
    intro bytes xs rest
    simp only [readSteps, Option.bind_eq_bind, Option.bind_eq_some_iff, Prod.exists, readStep_reads _ _ _ _, ih _ _ _,
      Option.some.injEq, Prod.mk.injEq]
    constructor
    · rintro ⟨x, _, ⟨hx, rfl⟩, xs, _, ⟨⟨hl, hf⟩, rfl⟩, rfl, rfl⟩
      exact ⟨⟨by rw [List.length_cons, hl], List.forall_mem_cons.mpr ⟨hx, hf⟩⟩, by simp⟩
    · rintro ⟨⟨hl, hf⟩, rfl⟩
      cases xs with
      | nil => cases hl
      | cons x xs =>
        obtain ⟨hx, hf⟩ := List.forall_mem_cons.mp hf
        exact ⟨x, xs.flatMap StepFields.bytes ++ rest, ⟨hx, by simp⟩, xs, rest, ⟨⟨Nat.succ.inj hl, hf⟩, rfl⟩, rfl, rfl⟩

/-- A field behind a presence bit. -/
theorem readIf_reads {α : Type} {read : List Byte → Option (α × List Byte)} {write : α → List Byte} {fits : α → Prop}
    (h : Reads read write fits) (present : Bool) :
    Reads (readIf present read) (fun x => (x.map write).getD [])
      (fun x => x.isSome = present ∧ ∀ v, x = some v → fits v) := by
  intro bytes x rest
  cases present <;> cases x <;> simp [readIf, h _ _ _]
  
/-! ### Matrices (R27, R159) -/

theorem bytes16_signed16 (b1 b2 : Byte) : bytes16 (BitVec.ofInt 16 (signed16 b1 b2)).toNat = [b1, b2] := by
  rw [signed16, BitVec.ofInt_toInt, BitVec.toNat_ofNat, bytes16_mod, bytes16_number16]

theorem signed16_fits (b1 b2 : Byte) : FitsCoefficient (signed16 b1 b2) := by
  have low := BitVec.le_toInt (BitVec.ofNat 16 (number16 b1 b2))
  have high := BitVec.toInt_lt (x := BitVec.ofNat 16 (number16 b1 b2))
  unfold FitsCoefficient signed16
  omega

theorem signed16_bytes16 {k : Int} (h : FitsCoefficient k) :
    signed16 (BitVec.ofNat 8 ((BitVec.ofInt 16 k).toNat / 256)) (BitVec.ofNat 8 (BitVec.ofInt 16 k).toNat) = k := by
  unfold FitsCoefficient at h
  rw [signed16, number16_bytes16 (by have := (BitVec.ofInt 16 k).isLt; omega), BitVec.ofNat_toNat, BitVec.setWidth_eq,
    BitVec.toInt_ofInt]
  exact Int.bmod_eq_of_le (by omega) (by omega)

end Sys2Proof.Machine
end

section
/-! PROOF. Requests as they are coded (R5, R159): each payload reader gives exactly the requests of its kind that fit,
from the payloads written for them. -/

namespace Sys2Proof.Machine

/-- A payload reader gives the requests of one kind that fit, each from the payload that is written for it. -/
def ReadsRequests (read : List Byte → Option Request) (kind : Byte) : Prop :=
  ∀ bytes r, read bytes = some r ↔ r.kind = kind ∧ r.Fits ∧ bytes = r.payload

theorem ended_eq_some {rest : List Byte} {r q : Request} : ended rest r = some q ↔ rest = [] ∧ r = q := by
  rw [ended, Option.ite_none_right_eq_some, Option.some.injEq]

/-- A request without fields is read from the empty payload. -/
theorem ended_reads {r : Request} (fits : r.Fits) (payload : r.payload = [])
    (only : ∀ q : Request, q.kind = r.kind → q = r) : ReadsRequests (ended · r) r.kind := by
  intro bytes q
  rw [ended_eq_some]
  constructor
  · rintro ⟨rfl, rfl⟩; exact ⟨rfl, fits, payload.symm⟩
  · rintro ⟨hk, -, rfl⟩; rw [only q hk]; exact ⟨payload, rfl⟩

theorem readFade_reads {make : Nat → Request} {kind : Byte} (hk : ∀ fade, (make fade).kind = kind)
    (fits : ∀ fade, (make fade).Fits ↔ FitsLong fade) (payload : ∀ fade, (make fade).payload = bytes32 fade)
    (only : ∀ q : Request, q.kind = kind → ∃ fade, make fade = q) :
    ReadsRequests (readFade · make) kind := by
  intro bytes r
  simp only [readFade, Option.bind_eq_bind, Option.bind_eq_some_iff, Prod.exists, readLong_reads _ _ _, ended_eq_some]
  constructor
  · rintro ⟨fade, _, ⟨h, rfl⟩, rfl, rfl⟩
    exact ⟨hk fade, (fits fade).mpr h, by rw [payload, List.append_nil]⟩
  · rintro ⟨k, h, rfl⟩
    obtain ⟨fade, rfl⟩ := only r k
    exact ⟨fade, [], ⟨(fits fade).mp h, by rw [payload, List.append_nil]⟩, rfl, rfl⟩

theorem readSetAndGroup_reads {make : SlotSet → Group → Request} {kind : Byte} (hk : ∀ set g, (make set g).kind = kind)
    (fits : ∀ set g, (make set g).Fits ↔ set.Fits)
    (payload : ∀ set g, (make set g).payload = set.bytes ++ byteOf (groupCode g))
    (only : ∀ q : Request, q.kind = kind → ∃ set g, make set g = q) :
    ReadsRequests (readSetAndGroup · make) kind := by
  intro bytes r
  simp only [readSetAndGroup, Option.bind_eq_bind, Option.bind_eq_some_iff, Prod.exists, readSlotSet_reads _ _ _,
    readGroup_reads _ _ _, ended_eq_some]
  constructor
  · rintro ⟨set, _, ⟨h, rfl⟩, g, _, ⟨-, rfl⟩, rfl, rfl⟩
    exact ⟨hk set g, (fits set g).mpr h, by rw [payload, List.append_nil]⟩
  · rintro ⟨k, h, rfl⟩
    obtain ⟨set, g, rfl⟩ := only r k
    exact ⟨set, _, ⟨(fits set g).mp h, payload set g⟩, g, [], ⟨trivial, (List.append_nil _).symm⟩, rfl, rfl⟩

/-! ### Codes of one byte -/

theorem optionOfCode_eq_some {b : Nat} {o : StepOption} : optionOfCode b = some o ↔ b = o.code := by
  constructor
  · intro h; unfold optionOfCode at h; split at h <;> cases h <;> rfl
  · rintro rfl; exact optionOfCode_code o

theorem boolOfCode_eq_some {b : Nat} {v : Bool} : boolOfCode b = some v ↔ b = if v then 1 else 0 := by
  constructor
  · intro h; unfold boolOfCode at h; split at h <;> cases h <;> rfl
  · rintro rfl; exact boolOfCode_of v

theorem linkOfCode_eq_some {b : Nat} {l : Link} : linkOfCode b = some l ↔ b = l.index.val := by
  constructor
  · intro h; unfold linkOfCode at h; split at h <;> cases h <;> rfl
  · rintro rfl; exact linkOfCode_index l

theorem lineOfCode_eq_some {b : Nat} {ln : LineNo} : lineOfCode b = some ln ↔ b = ln.val := by
  constructor
  · intro h; unfold lineOfCode at h; split at h <;> cases h; rfl
  · rintro rfl; exact lineOfCode_val ln

theorem StepOption.code_lt (o : StepOption) : o.code < 256 := by cases o <;> decide
theorem Rate.code_lt (r : Rate) : r.code < 256 := by cases r <;> decide
theorem index_lt (l : Link) : l.index.val < 256 := by cases l <;> decide
theorem boolCode_lt (b : Bool) : (if b then 1 else 0) < 256 := by cases b <;> decide
theorem line_lt (ln : LineNo) : ln.val < 256 := by omega

/-! ### The payloads, in the order of their kinds -/

theorem readRelease_reads : ReadsRequests readRelease 0x02#8 := by
  intro bytes r
  simp only [readRelease, Option.bind_eq_bind, Option.bind_eq_some_iff, Prod.exists, readSlotSet_reads _ _ _,
    readGroup_reads _ _ _, readLong_reads _ _ _, ended_eq_some]
  constructor
  · rintro ⟨set, _, ⟨h, rfl⟩, g, _, ⟨-, rfl⟩, fade, _, ⟨hf, rfl⟩, rfl, rfl⟩
    exact ⟨rfl, ⟨h, hf⟩, by simp [Request.payload]⟩
  · rintro ⟨k, h, rfl⟩
    cases r <;> simp [Request.kind] at k
    case release set g fade =>
      exact ⟨set, _, ⟨h.1, by simp only [Request.payload, List.append_assoc]⟩, g, _, ⟨trivial, rfl⟩, fade, [],
        ⟨h.2, (List.append_nil _).symm⟩, rfl, rfl⟩

/-- The presence byte of a STEP says which of its two optional fields are there. -/
theorem presence_bits {b : Nat} {x y : Bool} :
    (b ≤ 3 ∧ (b % 2 == 1) = x ∧ (b / 2 == 1) = y) ↔ b = (if x then 1 else 0) + (if y then 2 else 0) := by
  have two : b % 2 = 0 ∨ b % 2 = 1 := Nat.mod_two_eq_zero_or_one b
  cases x <;> cases y <;> simp only [beq_iff_eq, beq_eq_false_iff_ne, Bool.false_eq_true, if_true, if_false] <;> omega

theorem readStepRequest_reads : ReadsRequests readStepRequest 0x03#8 := by
  intro bytes r
  simp only [readStepRequest, Option.bind_eq_bind, Option.bind_eq_some_iff, Prod.exists, readSlotSet_reads _ _ _,
    readGroup_reads _ _ _, readByte_reads _ _ _, optionOfCode_eq_some, Option.ite_none_right_eq_some,
    readIf_reads readMode_reads _ _ _ _, readIf_reads readLowMark_reads _ _ _ _, readSteps_reads _ _ _ _ _,
    ended_eq_some]
  constructor
  · rintro ⟨set, _, ⟨hset, rfl⟩, g, _, ⟨-, rfl⟩, _, _, ⟨-, rfl⟩, option, rfl, presence, _, ⟨-, rfl⟩, h3,
      mode, _, ⟨⟨hmode, -⟩, rfl⟩, low, _, ⟨⟨hlow, h7⟩, rfl⟩, _, _, ⟨-, rfl⟩, hcount,
      steps, _, ⟨⟨rfl, hsteps⟩, rfl⟩, rfl, rfl⟩
    refine ⟨rfl, ⟨hset, h7, hcount.1, hcount.2, hsteps⟩, ?_⟩
    rw [presence_bits.mp ⟨h3, hmode.symm, hlow.symm⟩]
    simp only [Request.payload, presenceByte, List.append_assoc, List.append_nil]
  · rintro ⟨k, h, rfl⟩
    cases r <;> simp [Request.kind] at k
    case step set g option mode low steps =>
      obtain ⟨hset, h7, h1, h8, hsteps⟩ := h
      obtain ⟨h3, hmode, hlow⟩ := presence_bits.mpr (rfl :
        (if mode.isSome then 1 else 0) + (if low.isSome then 2 else 0) = _)
      exact ⟨set, _, ⟨hset, by simp only [Request.payload, presenceByte, List.append_assoc]⟩, g, _, ⟨trivial, rfl⟩, _, _,
        ⟨option.code_lt, rfl⟩, option, rfl, _, _, ⟨by omega, rfl⟩, h3, mode, _, ⟨⟨hmode.symm, fun _ _ => trivial⟩, rfl⟩,
        low, _, ⟨⟨hlow.symm, h7⟩, rfl⟩, _, _, ⟨by omega, rfl⟩, ⟨h1, h8⟩, steps, [],
        ⟨⟨rfl, hsteps⟩, (List.append_nil _).symm⟩, rfl, rfl⟩

theorem readSetMode_reads : ReadsRequests readSetMode 0x05#8 := by
  intro bytes r
  simp only [readSetMode, Option.bind_eq_bind, Option.bind_eq_some_iff, Prod.exists, readSlotSet_reads _ _ _,
    readGroup_reads _ _ _, readMode_reads _ _ _, readLowMark_reads _ _ _, ended_eq_some]
  constructor
  · rintro ⟨set, _, ⟨h, rfl⟩, g, _, ⟨-, rfl⟩, mode, _, ⟨-, rfl⟩, low, _, ⟨h7, rfl⟩, rfl, rfl⟩
    exact ⟨rfl, ⟨h, h7⟩, by simp [Request.payload]⟩
  · rintro ⟨k, h, rfl⟩
    cases r <;> simp [Request.kind] at k
    case setMode set g mode low =>
      exact ⟨set, _, ⟨h.1, by simp only [Request.payload, List.append_assoc]⟩, g, _, ⟨trivial, rfl⟩, mode, _,
        ⟨trivial, rfl⟩, low, [], ⟨h.2, (List.append_nil _).symm⟩, rfl, rfl⟩

theorem readOverride_reads : ReadsRequests readOverride 0x0B#8 := by
  intro bytes r
  simp only [readOverride, Option.bind_eq_bind, Option.bind_eq_some_iff, Prod.exists, readByte_reads _ _ _,
    boolOfCode_eq_some, readLong_reads _ _ _, ended_eq_some]
  constructor
  · rintro ⟨_, _, ⟨-, rfl⟩, on, rfl, fade, _, ⟨h, rfl⟩, rfl, rfl⟩
    exact ⟨rfl, h, by simp [Request.payload, boolByte]⟩
  · rintro ⟨k, h, rfl⟩
    cases r <;> simp [Request.kind] at k
    case override on fade =>
      exact ⟨_, _, ⟨boolCode_lt on, rfl⟩, on, rfl, fade, [], ⟨h, (List.append_nil _).symm⟩, rfl, rfl⟩

theorem readSetLine_reads : ReadsRequests readSetLine 0x10#8 := by
  intro bytes r
  simp only [readSetLine, Option.bind_eq_bind, Option.bind_eq_some_iff, Prod.exists, readByte_reads _ _ _,
    lineOfCode_eq_some, boolOfCode_eq_some, rateOfCode_eq_some, readWord_reads _ _ _, ended_eq_some]
  constructor
  · rintro ⟨_, _, ⟨-, rfl⟩, line, rfl, _, _, ⟨-, rfl⟩, enabled, rfl, _, _, ⟨-, rfl⟩, rate, rfl, window, _, ⟨hw, rfl⟩,
      refresh, _, ⟨hr, rfl⟩, join, _, ⟨hj, rfl⟩, rfl, rfl⟩
    exact ⟨rfl, ⟨hw, hr, hj⟩, by simp [Request.payload, boolByte]⟩
  · rintro ⟨k, h, rfl⟩
    cases r <;> simp [Request.kind] at k
    case setLine x =>
      exact ⟨_, _, ⟨line_lt x.line, by simp only [Request.payload, boolByte, List.append_assoc]⟩, x.line, rfl, _, _,
        ⟨boolCode_lt x.enabled, rfl⟩, x.enabled, rfl, _, _, ⟨x.rate.code_lt, rfl⟩, x.rate, rfl,
        x.replyWindow, _, ⟨h.1, rfl⟩, x.refreshPeriod, _, ⟨h.2.1, rfl⟩, x.joinPeriod, [],
        ⟨h.2.2, (List.append_nil _).symm⟩, rfl, rfl⟩

theorem readEnrolLine_reads : ReadsRequests readEnrolLine 0x11#8 := by
  intro bytes r
  simp only [readEnrolLine, Option.bind_eq_bind, Option.bind_eq_some_iff, Prod.exists, readByte_reads _ _ _,
    lineOfCode_eq_some, boolOfCode_eq_some, ended_eq_some]
  constructor
  · rintro ⟨_, _, ⟨-, rfl⟩, line, rfl, _, _, ⟨-, rfl⟩, join, rfl, rfl, rfl⟩
    exact ⟨rfl, trivial, by cases join <;> simp [Request.payload]⟩
  · rintro ⟨k, h, rfl⟩
    cases r <;> simp [Request.kind] at k
    case enrolLine line full =>
      exact ⟨_, _, ⟨line_lt line, rfl⟩, line, rfl, _, [], ⟨boolCode_lt (!full), by cases full <;> rfl⟩, !full, rfl, rfl,
        by rw [Bool.not_not]⟩

theorem readForget_reads : ReadsRequests readForget 0x13#8 := by
  intro bytes r
  simp only [readForget, Option.bind_eq_bind, Option.bind_eq_some_iff, Prod.exists, readSlotSet_reads _ _ _,
    ended_eq_some]
  constructor
  · rintro ⟨set, _, ⟨h, rfl⟩, rfl, rfl⟩
    exact ⟨rfl, h, by simp [Request.payload]⟩
  · rintro ⟨k, h, rfl⟩
    cases r <;> simp [Request.kind] at k
    case forget set => exact ⟨set, [], ⟨h, (List.append_nil _).symm⟩, rfl, rfl⟩

theorem readSetLink_reads : ReadsRequests readSetLink 0x14#8 := by
  intro bytes r
  simp only [readSetLink, Option.bind_eq_bind, Option.bind_eq_some_iff, Prod.exists, readByte_reads _ _ _,
    linkOfCode_eq_some, readWord_reads _ _ _, readLong_reads _ _ _, ended_eq_some]
  constructor
  · rintro ⟨_, _, ⟨-, rfl⟩, link, rfl, limit, _, ⟨hl, rfl⟩, fade, _, ⟨hf, rfl⟩, rfl, rfl⟩
    exact ⟨rfl, ⟨hl, hf⟩, by simp [Request.payload]⟩
  · rintro ⟨k, h, rfl⟩
    cases r <;> simp [Request.kind] at k
    case setLink link limit fade =>
      exact ⟨_, _, ⟨index_lt link, by simp only [Request.payload, List.append_assoc]⟩, link, rfl, limit, _,
        ⟨h.1, rfl⟩, fade, [], ⟨h.2, (List.append_nil _).symm⟩, rfl, rfl⟩

theorem readReadSlot_reads : ReadsRequests readReadSlot 0x19#8 := by
  intro bytes r
  simp only [readReadSlot, Option.bind_eq_bind, Option.bind_eq_some_iff, Prod.exists, readByte_reads _ _ _,
    ended_eq_some]
  constructor
  · rintro ⟨n, _, ⟨h, rfl⟩, rfl, rfl⟩
    exact ⟨rfl, h, by simp [Request.payload]⟩
  · rintro ⟨k, h, rfl⟩
    cases r <;> simp [Request.kind] at k
    case readSlot n => exact ⟨n, [], ⟨h, (List.append_nil _).symm⟩, rfl, rfl⟩

theorem readReadClaims_reads : ReadsRequests readReadClaims 0x1A#8 := by
  intro bytes r
  simp only [readReadClaims, Option.bind_eq_bind, Option.bind_eq_some_iff, Prod.exists, readByte_reads _ _ _,
    readGroup_reads _ _ _, ended_eq_some]
  constructor
  · rintro ⟨n, _, ⟨h, rfl⟩, g, _, ⟨-, rfl⟩, rfl, rfl⟩
    exact ⟨rfl, h, by simp [Request.payload]⟩
  · rintro ⟨k, h, rfl⟩
    cases r <;> simp [Request.kind] at k
    case readClaims n g => exact ⟨n, _, ⟨h, rfl⟩, g, [], ⟨trivial, (List.append_nil _).symm⟩, rfl, rfl⟩

theorem readReadLine_reads : ReadsRequests readReadLine 0x1B#8 := by
  intro bytes r
  simp only [readReadLine, Option.bind_eq_bind, Option.bind_eq_some_iff, Prod.exists, readByte_reads _ _ _,
    lineOfCode_eq_some, ended_eq_some]
  constructor
  · rintro ⟨_, _, ⟨-, rfl⟩, line, rfl, rfl, rfl⟩
    exact ⟨rfl, trivial, by simp [Request.payload]⟩
  · rintro ⟨k, h, rfl⟩
    cases r <;> simp [Request.kind] at k
    case readLine line =>
      exact ⟨_, [], ⟨line_lt line, (List.append_nil _).symm⟩, line, rfl, rfl, rfl⟩

theorem readReadType_reads : ReadsRequests readReadType 0x1C#8 := by
  intro bytes r
  simp only [readReadType, Option.bind_eq_bind, Option.bind_eq_some_iff, Prod.exists, readByte_reads _ _ _,
    Option.dite_none_right_eq_some, ended_eq_some]
  constructor
  · rintro ⟨n, _, ⟨-, rfl⟩, h16, rfl, rfl⟩
    exact ⟨rfl, trivial, by simp [Request.payload]⟩
  · rintro ⟨k, h, rfl⟩
    cases r <;> simp [Request.kind] at k
    case readType entry =>
      exact ⟨entry.val, [], ⟨by omega, (List.append_nil _).symm⟩, entry.isLt, rfl, rfl⟩

/-! ### SET_TYPE -/

/-- The bytes of one row of a matrix. -/
def rowBytes (r : MatrixRow) : List Byte :=
  [r.c1, r.c2, r.c3].flatMap fun k => bytes16 (BitVec.ofInt 16 k).toNat

def RowFits (r : MatrixRow) : Prop := FitsCoefficient r.c1 ∧ FitsCoefficient r.c2 ∧ FitsCoefficient r.c3

theorem rowBytes_signed16 (a b c d e f : Byte) :
    rowBytes ⟨signed16 a b, signed16 c d, signed16 e f⟩ = [a, b, c, d, e, f] := by
  simp only [rowBytes, List.flatMap_cons, List.flatMap_nil, bytes16_signed16, List.cons_append, List.nil_append]

/-- The row whose coefficients six bytes carry. -/
theorem rowBytes_of_fits {r : MatrixRow} (h : RowFits r) :
    ∃ a b c d e f, rowBytes r = [a, b, c, d, e, f] ∧ ⟨signed16 a b, signed16 c d, signed16 e f⟩ = r := by
  obtain ⟨k1, k2, k3⟩ := r
  obtain ⟨h1, h2, h3⟩ := h
  exact ⟨_, _, _, _, _, _, rfl, by
    rw [signed16_bytes16 h1, signed16_bytes16 h2, signed16_bytes16 h3]⟩

theorem matrixBytes_rows (r1 r2 r3 r4 r5 : MatrixRow) :
    matrixBytes #v[r1, r2, r3, r4, r5] =
      rowBytes r1 ++ (rowBytes r2 ++ (rowBytes r3 ++ (rowBytes r4 ++ (rowBytes r5 ++ [])))) := rfl

/-- Every matrix is five rows. -/
theorem Matrix.eq_rows (m : Matrix) : ∃ r1 r2 r3 r4 r5, m = #v[r1, r2, r3, r4, r5] :=
  ⟨m[0], m[1], m[2], m[3], m[4], Vector.ext fun i hi => by
    match i, hi with
    | 0, _ | 1, _ | 2, _ | 3, _ | 4, _ => rfl⟩

theorem readMatrix_eq_some {bytes : List Byte} {m : Matrix} :
    readMatrix bytes = some m ↔ (∀ row ∈ m.toList, RowFits row) ∧ bytes = matrixBytes m := by
  constructor
  · intro h
    unfold readMatrix at h
    split at h
    · cases h
      refine ⟨fun row hrow => ?_, ?_⟩
      · simp only [Vector.toList_mk, List.mem_cons, List.not_mem_nil, or_false] at hrow
        rcases hrow with rfl | rfl | rfl | rfl | rfl <;>
          exact ⟨signed16_fits _ _, signed16_fits _ _, signed16_fits _ _⟩
      · simp only [matrixBytes_rows, rowBytes_signed16, List.cons_append, List.nil_append]
    · cases h
  · rintro ⟨fits, rfl⟩
    obtain ⟨r1, r2, r3, r4, r5, rfl⟩ := m.eq_rows
    simp only [Vector.toList_mk, List.forall_mem_cons] at fits
    obtain ⟨f1, f2, f3, f4, f5, -⟩ := fits
    obtain ⟨_, _, _, _, _, _, e1, rfl⟩ := rowBytes_of_fits f1
    obtain ⟨_, _, _, _, _, _, e2, rfl⟩ := rowBytes_of_fits f2
    obtain ⟨_, _, _, _, _, _, e3, rfl⟩ := rowBytes_of_fits f3
    obtain ⟨_, _, _, _, _, _, e4, rfl⟩ := rowBytes_of_fits f4
    obtain ⟨_, _, _, _, _, _, e5, rfl⟩ := rowBytes_of_fits f5
    rw [matrixBytes_rows, e1, e2, e3, e4, e5]
    rfl

theorem readSetType_reads : ReadsRequests readSetType 0x12#8 := by
  intro bytes r
  simp only [readSetType, Option.bind_eq_bind, Option.bind_eq_some_iff, Prod.exists, readWord_reads _ _ _,
    readMatrix_eq_some, Option.some.injEq]
  constructor
  · rintro ⟨code, _, ⟨h, rfl⟩, m, ⟨fits, rfl⟩, rfl⟩
    refine ⟨rfl, fits, ?_⟩
    rw [Request.payload, BitVec.toNat_ofNat, Nat.mod_eq_of_lt h]
  · rintro ⟨k, h, rfl⟩
    cases r <;> simp [Request.kind] at k
    case setType code m => exact ⟨code.toNat, _, ⟨code.isLt, rfl⟩, m, ⟨h, rfl⟩, by simp⟩

/-! ### Every request -/

theorem readSeize_reads : ReadsRequests (readSetAndGroup · .seize) 0x01#8 :=
  readSetAndGroup_reads (fun _ _ => rfl) (fun _ _ => Iff.rfl) (fun _ _ => rfl) fun q hq => by
    cases q <;> simp [Request.kind] at hq; exact ⟨_, _, rfl⟩

theorem readHalt_reads : ReadsRequests (readSetAndGroup · .halt) 0x04#8 :=
  readSetAndGroup_reads (fun _ _ => rfl) (fun _ _ => Iff.rfl) (fun _ _ => rfl) fun q hq => by
    cases q <;> simp [Request.kind] at hq; exact ⟨_, _, rfl⟩

theorem readGive_reads : ReadsRequests (readFade · .handoverGive) 0x09#8 :=
  readFade_reads (fun _ => rfl) (fun _ => Iff.rfl) (fun _ => rfl) fun q hq => by
    cases q <;> simp [Request.kind] at hq; exact ⟨_, rfl⟩

theorem readSafeClear_reads : ReadsRequests (readFade · .safeClear) 0x0C#8 :=
  readFade_reads (fun _ => rfl) (fun _ => Iff.rfl) (fun _ => rfl) fun q hq => by
    cases q <;> simp [Request.kind] at hq; exact ⟨_, rfl⟩

theorem readSetPair_reads : ReadsRequests (readFade · .setPair) 0x15#8 :=
  readFade_reads (fun _ => rfl) (fun _ => Iff.rfl) (fun _ => rfl) fun q hq => by
    cases q <;> simp [Request.kind] at hq; exact ⟨_, rfl⟩

theorem readAsk_reads : ReadsRequests (ended · .handoverAsk) 0x08#8 :=
  ended_reads trivial rfl fun q hq => by cases q <;> simp [Request.kind] at hq; rfl

theorem readDecline_reads : ReadsRequests (ended · .handoverDecline) 0x0A#8 :=
  ended_reads trivial rfl fun q hq => by cases q <;> simp [Request.kind] at hq; rfl

theorem readRigClear_reads : ReadsRequests (ended · .rigClear) 0x16#8 :=
  ended_reads trivial rfl fun q hq => by cases q <;> simp [Request.kind] at hq; rfl

theorem readKeep_reads : ReadsRequests (ended · .keep) 0x18#8 :=
  ended_reads trivial rfl fun q hq => by cases q <;> simp [Request.kind] at hq; rfl

theorem readReadPart_reads : ReadsRequests (ended · .readPart) 0x1D#8 :=
  ended_reads trivial rfl fun q hq => by cases q <;> simp [Request.kind] at hq; rfl

/-- R5, R159: what a frame asks for, by its kind. -/
theorem Frame.request_eq_some {f : Frame} {r : Request} :
    f.request = some r ↔ f.kind = r.kind ∧ r.Fits ∧ f.payload = r.payload := by
  obtain ⟨tag, kind, payload⟩ := f
  have byKind : ∀ {n : Nat} {read : List Byte → Option Request}, kind.toNat = n → ReadsRequests read (BitVec.ofNat 8 n) →
      (read payload = some r ↔ kind = r.kind ∧ r.Fits ∧ payload = r.payload) := fun e h => by
    rw [h, (toNat_eq_iff.mp e).2, @eq_comm _ r.kind]
  unfold Frame.request
  dsimp only
  split
  case h_1 e => exact byKind e readSeize_reads
  case h_2 e => exact byKind e readRelease_reads
  case h_3 e => exact byKind e readStepRequest_reads
  case h_4 e => exact byKind e readHalt_reads
  case h_5 e => exact byKind e readSetMode_reads
  case h_6 e => exact byKind e readAsk_reads
  case h_7 e => exact byKind e readGive_reads
  case h_8 e => exact byKind e readDecline_reads
  case h_9 e => exact byKind e readOverride_reads
  case h_10 e => exact byKind e readSafeClear_reads
  case h_11 e => exact byKind e readSetLine_reads
  case h_12 e => exact byKind e readEnrolLine_reads
  case h_13 e => exact byKind e readSetType_reads
  case h_14 e => exact byKind e readForget_reads
  case h_15 e => exact byKind e readSetLink_reads
  case h_16 e => exact byKind e readSetPair_reads
  case h_17 e => exact byKind e readRigClear_reads
  case h_18 e => exact byKind e readKeep_reads
  case h_19 e => exact byKind e readReadSlot_reads
  case h_20 e => exact byKind e readReadClaims_reads
  case h_21 e => exact byKind e readReadLine_reads
  case h_22 e => exact byKind e readReadType_reads
  case h_23 e => exact byKind e readReadPart_reads
  case h_24 =>
    refine ⟨fun h => (nomatch h), ?_⟩
    rintro ⟨rfl, -, -⟩
    cases r <;> simp [Request.kind] at *

/-- Settles O7: a frame is its tag, its kind and its payload. -/
theorem requestsAreReadAsWritten : Obligations.RequestsAreReadAsWritten := fun f r => by
  rw [Frame.request_eq_some]
  constructor
  · rintro ⟨hk, fits, hp⟩; exact ⟨fits, by rw [Request.frame, ← hk, ← hp]⟩
  · rintro ⟨fits, e⟩; exact ⟨congrArg Frame.kind e, fits, congrArg Frame.payload e⟩

/-- Settles O11: the taking of UNKNOWN_KIND, and the kinds that the requests have. -/
theorem malformedRequestsAreAnswered : Obligations.MalformedRequestsAreAnswered := by
  refine ⟨fun s l f hr hf h => ⟨_, exec_unknownKind hr hf h, s.refuse_answeredOnly l f _⟩, fun f unknown => ?_⟩
  cases h : f.request with
  | none => rfl
  | some r => exact absurd (Frame.request_eq_some.mp h).1 (unknown r)

end Sys2Proof.Machine
end

section
/-! PROOF. What the transmitter sends (R6 to R10): the bytes of answers and notices, field by field as section 12.1 codes
them, and the beginning and the end of a frame. -/

namespace Sys2Proof.Machine

/-! ### Fields, one after another -/

theorem fieldBytes_nil : fieldBytes [] = [] := rfl

theorem fieldBytes_append (a b : List (Nat × Nat)) : fieldBytes (a ++ b) = fieldBytes a ++ fieldBytes b :=
  List.flatMap_append ..

theorem fieldBytes_flatMap {α : Type} (l : List α) (f : α → List (Nat × Nat)) :
    fieldBytes (l.flatMap f) = l.flatMap fun x => fieldBytes (f x) := by
  induction l with
  | nil => rfl
  | cons x rest ih => rw [List.flatMap_cons, fieldBytes_append, ih, List.flatMap_cons]

theorem fieldBytes_one (n : Nat) (rest : List (Nat × Nat)) :
    fieldBytes ((1, n) :: rest) = byteOf n ++ fieldBytes rest := by
  simp [fieldBytes, byteOf]

theorem fieldBytes_two (n : Nat) (rest : List (Nat × Nat)) :
    fieldBytes ((2, n) :: rest) = bytes16 n ++ fieldBytes rest := by
  simp [fieldBytes, bytes16, List.range_succ]

theorem fieldBytes_four (n : Nat) (rest : List (Nat × Nat)) :
    fieldBytes ((4, n) :: rest) = bytes32 n ++ fieldBytes rest := by
  simp [fieldBytes, bytes32, bytes16, List.range_succ, Nat.div_div_eq_div_mul]

theorem fieldBytes_five (n : Nat) (rest : List (Nat × Nat)) :
    fieldBytes ((5, n) :: rest) = bytes40 n ++ fieldBytes rest := by
  simp [fieldBytes, bytes40, bytes32, bytes16, List.range_succ, Nat.div_div_eq_div_mul]

/-- A field of zeros, as an absent one is sent. -/
theorem fieldBytes_zeros (width : Nat) : fieldBytes [(width, 0)] = List.replicate width 0#8 := by
  simp [fieldBytes, List.map_const']

theorem fieldBytes_value (v : Value) : fieldBytes (valueFields v) = valueBytes v := by
  induction v with
  | nil => rfl
  | cons x rest ih =>
    simp only [valueFields, List.map_cons, fieldBytes_two, valueBytes, List.flatMap_cons] at ih ⊢
    rw [ih]

theorem fieldBytes_optionally {α : Type} (width : Nat) (fields : α → List (Nat × Nat)) (x : Option α) :
    fieldBytes (optionally width (x.map fields)) = optionalField width (fun v => fieldBytes (fields v)) x := by
  cases x with
  | none => simp only [optionally, Option.map_none, fieldBytes_one, fieldBytes_zeros]; rfl
  | some v => simp only [optionally, Option.map_some, fieldBytes_one]; rfl

theorem byteOf_toNat (b : Byte) : byteOf b.toNat = [b] := by simp [byteOf]

theorem byteOf_bool (b : Bool) : byteOf b.toNat = boolByte b := by cases b <;> rfl

/-! ### Codes -/

section
theorem numbered_status (x : Status) :
    numbered [.ok, .clamped, .busy, .notPermitted, .badSlot, .badRequest, .poolFull, .queueFull, .noClaim, .tableFull,
      .lineOff, .safetyHold] x = (1, x.code) := by cases x <;> rfl
theorem numbered_group (x : Group) : numbered [.aim, .colour, .level] x = (1, groupCode x) := by cases x <;> rfl
theorem numbered_role (x : Role) : numbered [.live, .shadow] x = (1, x.code) := by cases x <;> rfl
theorem numbered_standing (x : Standing) : numbered [.owner, .held, .shadow] x = (1, x.code) := by cases x <;> rfl
theorem numbered_mode (x : Mode) : numbered [.oneShot, .loop] x = (1, x.code) := by cases x <;> rfl
theorem numbered_rate (x : Rate) : numbered [.r250, .r500, .r1000, .r2000] x = (1, x.code) := by cases x <;> rfl
theorem numbered_slotState (x : SlotState) : numbered [.free, .online, .missing] x = (1, x.code) := by cases x <;> rfl
theorem numbered_safety (x : SafetyState) : numbered [.clear, .holding, .latched] x = (1, x.code) := by cases x <;> rfl
theorem numbered_safetyCause (x : SafetyCause) : numbered [.asserted, .released, .cleared] x = (1, x.code) := by
  cases x <;> rfl
theorem numbered_seq (x : SeqState) : numbered [.off, .idle, .sending, .awaiting, .enrolling] x = (1, x.code) := by
  cases x <;> rfl
theorem numbered_subState (x : SubState) :
    numbered [.dropping, .calling, .arbitrating, .assigning] x = (1, x.code) := by cases x <;> rfl
theorem numbered_outcome (x : EnrolOutcome) : numbered [.complete, .stopped, .abandoned] x = (1, x.code) := by
  cases x <;> rfl
theorem numbered_gone (x : GoneCause) : numbered [.misses, .dropped, .lineOff] x = (1, x.code) := by cases x <;> rfl
theorem numbered_restore (x : RestoreCause) : numbered [.release, .silence, .pair] x = (1, x.code) := by cases x <;> rfl
theorem numbered_pairCause (x : PairCause) :
    numbered [.give, .failover, .standbyLive, .overrideOn, .overrideOff, .standbySilent] x = (1, x.code) := by
  cases x <;> rfl
theorem idxOf_rate (x : Rate) : [Rate.r250, .r500, .r1000, .r2000].idxOf x = x.code := by cases x <;> rfl
theorem idxOf_curve (x : Curve) : [Curve.linear, .easeIn, .easeOut, .easeInOut, .snap, .snapEnd].idxOf x = x.code := by
  cases x <;> rfl
theorem idxOf_operation (x : Operation) : [Operation.none, .full, .join, .joining].idxOf x = x.place := by
  cases x <;> rfl
theorem idxOf_fixtureCondition (x : FixtureCondition) :
    [FixtureCondition.motorStall, .overTemperature, .emitterFault, .positionLost, .fanFault].idxOf x = x.place := by
  cases x <;> rfl
theorem idxOf_lineCondition (x : LineCondition) :
    [LineCondition.enrolFailed, .tableFull, .duplicateId, .wrongAddress].idxOf x = x.place := by cases x <;> rfl
end

/-- A bit of a set, weighted by its place. -/
theorem toNat_eq_ite (b : Bool) (w : Nat) : (if b then w else 0) = w * b.toNat := by cases b <;> simp

theorem bitSet_answerFlags (f : AnswerFlags) :
    bitSet [f.requestOverrun, f.noticeOverflow, f.safetyActive] = (1, f.code) := by
  simp only [bitSet, AnswerFlags.code, toNat_eq_ite, List.foldr, Prod.mk.injEq, true_and]; omega

section
variable (rest : List (Nat × Nat))

theorem fieldBytes_conditions (c : ConditionSet) :
    fieldBytes (conditionFields c :: rest) = c.bytes ++ fieldBytes rest := by
  simp only [conditionFields, bitSet, fieldBytes_one, ConditionSet.bytes, toNat_eq_ite, List.foldr]
  congr 2; omega

theorem fieldBytes_lineConditions (c : LineConditionSet) :
    fieldBytes (bitSet [c.enrolFailed, c.tableFull, c.duplicateId, c.wrongAddress] :: rest) =
      c.bytes ++ fieldBytes rest := by
  simp only [bitSet, fieldBytes_one, LineConditionSet.bytes, toNat_eq_ite, List.foldr]
  congr 2; omega

theorem fieldBytes_slotFlags (f : SlotFlags) :
    fieldBytes (bitSet [f.changed, f.urgent, f.lagging, f.gamut] :: rest) = f.bytes ++ fieldBytes rest := by
  simp only [bitSet, fieldBytes_one, SlotFlags.bytes, toNat_eq_ite, List.foldr]
  congr 2; omega

theorem fieldBytes_groups (x : PerGroup Bool) :
    fieldBytes (groupFields x :: rest) = groupSetBytes x ++ fieldBytes rest := by
  simp only [groupFields, bitSet, fieldBytes_one, groupSetBytes, toNat_eq_ite, List.foldr]
  congr 2; omega

end

/-! ### The data of an answer -/

theorem fieldBytes_map_two {α : Type} (f : α → Nat) (l : List α) :
    fieldBytes (l.map fun x => (2, f x)) = l.flatMap fun x => bytes16 (f x) := by
  induction l with
  | nil => rfl
  | cons x rest ih => rw [List.map_cons, fieldBytes_two, ih, List.flatMap_cons]

theorem LastSent.bytes_eq (y : LastSent) :
    y.bytes = fieldBytes ([(2, y.pan), (2, y.tilt)] ++
      (List.range 5).map (fun k => (2, (y.levels[k]?).getD (Config.unsentLevel k).toNat)) ++
      [(4, y.time.reading.toNat)]) := by
  simp only [LastSent.bytes, fieldBytes_append, fieldBytes_two, fieldBytes_four, fieldBytes_nil, fieldBytes_map_two,
    readingBytes, List.append_assoc, List.append_nil]

theorem runningBytes_eq (r : RunningStep) (p : Option Phase) :
    runningBytes r p = fieldBytes (valueFields r.step.target ++
      [(4, r.step.duration), (4, r.step.dwell),
        (1, [Curve.linear, .easeIn, .easeOut, .easeInOut, .snap, .snapEnd].idxOf r.adjusted + 128 * r.step.tie.toNat)] ++
      valueFields r.startValue ++
      [(4, r.startTime.toNat),
        (1, (Config.unstatedCode (if p = some .moving then .moving else .dwelling)).toNat)]) := by
  simp only [runningBytes, fieldBytes_append, fieldBytes_value, fieldBytes_one, fieldBytes_four, fieldBytes_nil,
    idxOf_curve, toNat_eq_ite, byteOf_toNat, unstated, readingBytes, List.append_assoc, List.append_nil]

theorem Crossfade.bytes_eq (x : Crossfade) :
    x.bytes = fieldBytes (valueFields x.fromValue ++ [(4, x.start.reading.toNat), (4, x.duration)]) := by
  simp only [Crossfade.bytes, fieldBytes_append, fieldBytes_value, fieldBytes_four, fieldBytes_nil, readingBytes,
    List.append_assoc, List.append_nil]

theorem slotRecordBytes_eq (n : SlotNo) (x : Slot) : fieldBytes (slotFields n x) = slotRecordBytes n x := by
  rw [slotRecordBytes, funext LastSent.bytes_eq]
  simp only [slotFields, fieldBytes_append, fieldBytes_optionally, readingBytes, fieldBytes_value, fieldBytes_one,
    fieldBytes_two, fieldBytes_four, fieldBytes_five, fieldBytes_nil, numbered_slotState, idxOf_rate,
    fieldBytes_conditions, fieldBytes_slotFlags, List.append_assoc, List.append_nil]

theorem GroupView.bytes_eq (v : GroupView) : fieldBytes (viewFields v) = v.bytes := by
  simp only [viewFields, fieldBytes_append, fieldBytes_optionally, fieldBytes_value, fieldBytes_one, fieldBytes_nil,
    List.append_nil, byteOf_bool, GroupView.bytes]

theorem ClaimView.bytes_eq (g : Group) (v : ClaimView) : fieldBytes (claimFields g v) = v.bytes g := by
  simp only [claimFields, ClaimView.bytes, runningBytes_eq, fieldBytes_append, fieldBytes_optionally, fieldBytes_value,
    fieldBytes_one, fieldBytes_two, fieldBytes_four, fieldBytes_nil, numbered_role, numbered_standing, numbered_mode,
    readingBytes, byteOf_bool, List.append_assoc, List.append_nil]

theorem lineRecordBytes_eq (r : LineRec) (a b : Nat) :
    fieldBytes (dataFields (.line r a b)) = lineRecordBytes r a b := by
  simp only [dataFields, lineRecordBytes, fieldBytes_append, fieldBytes_optionally, fieldBytes_one, fieldBytes_two,
    fieldBytes_four, fieldBytes_nil, numbered_rate, numbered_seq, numbered_subState, idxOf_operation, byteOf_bool,
    byteOf_toNat, fieldBytes_lineConditions, unstated, readingBytes, List.append_assoc, List.append_nil]

theorem matrixBytes_eq (m : Matrix) :
    fieldBytes (m.toList.flatMap fun r => [r.c1, r.c2, r.c3].map fun k => (2, (k % 65536).toNat)) = matrixBytes m := by
  simp only [fieldBytes_flatMap, List.map_cons, List.map_nil, fieldBytes_two, fieldBytes_nil, matrixBytes,
    List.flatMap_cons, List.flatMap_nil, BitVec.toNat_ofInt]
  rfl

/-- R159: the data of an answer is sent field by field. -/
theorem AnswerData.bytes_eq (d : AnswerData) : d.bytes = fieldBytes (dataFields d) := by
  cases d with
  | none => rfl
  | entry k => simp only [AnswerData.bytes, dataFields, fieldBytes_one, fieldBytes_nil, List.append_nil]
  | keep l limit fade waiting =>
    simp only [AnswerData.bytes, dataFields, fieldBytes_one, fieldBytes_two, fieldBytes_four, fieldBytes_nil,
      List.append_assoc, List.append_nil]
  | part clock safety pair freeClaims freeSteps =>
    simp only [AnswerData.bytes, dataFields, numbered_safety, fieldBytes_one, fieldBytes_two, fieldBytes_four,
      fieldBytes_nil, List.append_assoc, List.append_nil, byteOf_bool, readingBytes, Config.partCode, Config.revision]
  | slot n record views =>
    simp only [AnswerData.bytes, dataFields, fieldBytes_append, slotRecordBytes_eq, GroupView.bytes_eq]
  | claims g views fade =>
    rw [AnswerData.bytes, funext Crossfade.bytes_eq, ← funext (ClaimView.bytes_eq g)]
    simp only [dataFields, List.cons_append, fieldBytes_one, fieldBytes_append, fieldBytes_flatMap,
      fieldBytes_optionally, List.append_assoc]
  | line r a b => exact (lineRecordBytes_eq r a b).symm
  | type inUse code matrix users =>
    simp only [AnswerData.bytes, dataFields, fieldBytes_append, matrixBytes_eq, fieldBytes_one, fieldBytes_two,
      fieldBytes_nil, byteOf_bool, List.append_assoc, List.append_nil]

/-- R159: the payload of a notice is sent field by field. -/
theorem Notice.payload_eq (n : Notice) : n.payload = fieldBytes (noticeFields n).2 := by
  cases n <;>
    simp only [Notice.payload, noticeFields, numbered_group, numbered_restore, numbered_gone, numbered_outcome,
      numbered_pairCause, numbered_safety, fieldBytes_groups, numbered_safetyCause, idxOf_fixtureCondition, idxOf_lineCondition,
      fieldBytes_one, fieldBytes_two, fieldBytes_four, fieldBytes_nil, byteOf_bool, byteOf_toNat, unstated,
      List.append_assoc, List.append_nil]

theorem Notice.code_eq (n : Notice) : n.code = (noticeFields n).1 := by cases n <;> rfl

/-- The check of a frame goes out as a field of two bytes. -/
theorem linkFrame_eq_controlFrame (tag kind : Byte) (payload : List Byte) :
    linkFrame tag kind payload = controlFrame tag kind payload := by
  simp only [linkFrame, controlFrame, fieldBytes_two, fieldBytes_nil, List.append_nil]

theorem Answer.bytes_eq (a : Answer) : a.bytes = linkFrame a.tag a.kind (fieldBytes (
    [numbered [.ok, .clamped, .busy, .notPermitted, .badSlot, .badRequest, .poolFull, .queueFull, .noClaim, .tableFull,
        .lineOff, .safetyHold] a.status,
      bitSet [a.flags.requestOverrun, a.flags.noticeOverflow, a.flags.safetyActive]] ++ dataFields a.data)) := by
  simp only [Answer.bytes, linkFrame_eq_controlFrame, numbered_status, bitSet_answerFlags, List.cons_append,
    List.nil_append, fieldBytes_one, AnswerData.bytes_eq, List.append_assoc]

theorem Notice.bytes_eq (n : Notice) :
    n.bytes = linkFrame 0 (BitVec.ofNat 8 (noticeFields n).1) (fieldBytes (noticeFields n).2) := by
  rw [Notice.bytes, linkFrame_eq_controlFrame, Notice.code_eq, Notice.payload_eq]
  rfl

/-! ### The beginning and the end of a frame (R4, R9, R10) -/

theorem exec_transmitStart {s : State} (h : s.inReset = false) (l : Link) :
    exec (.transmitStart l) s = .next (s.setLink l ((s.link l).beginFrame s.micros)) :=
  congrArg Host.Outcome.next (State.whenRunning_of_running h _)

theorem exec_transmitDone {s : State} (h : s.inReset = false) (l : Link) :
    exec (.transmitDone l) s = .next (s.setLink l ((s.link l).endFrame s.micros)) :=
  congrArg Host.Outcome.next (State.whenRunning_of_running h _)

section
variable {r : LinkRec} {micros : Nat}

theorem LinkRec.beginFrame_answer {a : Answer} (h : r.state ≠ .silent ∧ r.sending = none ∧ r.txReady ≤ micros)
    (ha : r.answer = some a) :
    r.beginFrame micros =
      { r with sending := some { isAnswer := true, bytes := a.bytes, ends := micros + 10 * a.bytes.length } } := by
  simp only [LinkRec.beginFrame, if_pos h, ha]; rfl

theorem LinkRec.beginFrame_notice {n : Notice} {rest : List Notice}
    (h : r.state ≠ .silent ∧ r.sending = none ∧ r.txReady ≤ micros) (ha : r.answer = none) (hn : r.notices = n :: rest) :
    r.beginFrame micros =
      { r with
        notices := rest
        noticeOverflow := if rest = [] then false else r.noticeOverflow
        sending := some { isAnswer := false, bytes := n.bytes, ends := micros + 10 * n.bytes.length } } := by
  simp only [LinkRec.beginFrame, if_pos h, ha, hn]
  cases rest <;> simp [sendingOf]

theorem LinkRec.beginFrame_nothing (ha : r.answer = none) (hn : r.notices = []) : r.beginFrame micros = r := by
  unfold LinkRec.beginFrame; simp only [ha, hn]; exact ite_self _

theorem LinkRec.beginFrame_busy (h : ¬(r.state ≠ .silent ∧ r.sending = none ∧ r.txReady ≤ micros)) :
    r.beginFrame micros = r := if_neg h

theorem LinkRec.endFrame_over {x : Sending} (hx : r.sending = some x) (h : x.ends ≤ micros) :
    r.endFrame micros =
      { r with
        sending := none
        txReady := micros + 50
        answer := if x.isAnswer then none else r.answer }.handOn := by
  simp only [LinkRec.endFrame, hx, if_pos h]

theorem LinkRec.endFrame_going (h : ∀ x, r.sending = some x → micros < x.ends) : r.endFrame micros = r := by
  unfold LinkRec.endFrame
  split
  · rfl
  · rename_i x hx
    exact if_neg (Nat.not_le.mpr (h x hx))

end

/-- R4, R10: the end of a frame, and what is then in hand. -/
theorem State.transmitDone_spec {s : State} (l : Link) {x : Sending} (hx : (s.link l).sending = some x)
    (h : x.ends ≤ s.micros) :
    let t := s.setLink l ((s.link l).endFrame s.micros)
    t = { s with links := t.links } ∧ (∀ k, k ≠ l → t.link k = s.link k) ∧
      t.link l =
        { s.link l with
          sending := none
          txReady := s.micros + 50
          answer := if x.isAnswer then none else (s.link l).answer
          inHand := (t.link l).inHand
          requests := (t.link l).requests } ∧
      (t.link l).waiting = (s.link l).waiting ∧
      ((t.link l).answer = none → (s.link l).inHand = none → (t.link l).inHand = (s.link l).requests.head?) ∧
      ((t.link l).answer.isSome = true ∨ (s.link l).inHand.isSome = true → (t.link l).inHand = (s.link l).inHand) := by
  intro t
  have done : t.link l =
      { s.link l with
        sending := none
        txReady := s.micros + 50
        answer := if x.isAnswer then none else (s.link l).answer }.handOn := by
    rw [State.setLink_link_self, LinkRec.endFrame_over hx h]
  generalize hq : ({ s.link l with
        sending := none
        txReady := s.micros + 50
        answer := if x.isAnswer then none else (s.link l).answer } : LinkRec) = q at done
  obtain ⟨frame, free, busy⟩ := q.handOn_spec
  have answer : q.handOn.answer = q.answer := by rw [frame]
  refine ⟨rfl, fun k hk => State.setLink_link_ne _ _ hk, ?_, ?_, ?_, ?_⟩ <;> rw [done]
  · rw [frame]; subst hq; rfl
  · rw [LinkRec.handOn_waiting]; subst hq; rfl
  · rw [answer]
    intro h1 h2
    rw [(free h1 (by subst hq; exact h2)).1]; subst hq; rfl
  · rw [answer]
    intro held
    rw [busy]
    · subst hq; rfl
    · rintro ⟨h1, h2⟩
      rcases held with held | held
      · rw [h1] at held; cases held
      · subst hq; rw [show (s.link l).inHand = none from h2] at held; cases held

/-- Settles O10: what each branch of the transmitter does to its link's record, and the bytes it sends. -/
theorem transmitterSendsAnswersFirst : Obligations.TransmitterSendsAnswersFirst := by
  refine ⟨fun s l hr => ⟨fun live idle ready => ⟨fun a ha => ?_, fun n rest ha hn => ?_, fun ha hn => ?_⟩,
    fun barred => ?_, fun x hx due => ⟨_, exec_transmitDone hr l, State.transmitDone_spec l hx due⟩, fun going => ?_⟩,
    Answer.bytes_eq, Notice.bytes_eq⟩
  · rw [exec_transmitStart hr, LinkRec.beginFrame_answer ⟨live, idle, ready⟩ ha]
  · rw [exec_transmitStart hr, LinkRec.beginFrame_notice ⟨live, idle, ready⟩ ha hn]
  · rw [exec_transmitStart hr, LinkRec.beginFrame_nothing ha hn, State.setLink_link_back]
  · rw [exec_transmitStart hr, LinkRec.beginFrame_busy, State.setLink_link_back]
    rintro ⟨live, idle, ready⟩
    rcases barred with h | h | h
    · exact live h
    · rw [idle] at h; cases h
    · omega
  · rw [exec_transmitDone hr, LinkRec.endFrame_going going, State.setLink_link_back]

end Sys2Proof.Machine
end

section
/-! PROOF. Owners and stacks when claims leave or change role, and the notices of what a link gained by it (R57, R58,
R66, R72). -/

namespace Sys2Proof.Machine

/-! ### Stacks of fewer claims (R57) -/

theorem State.stack_congr {s t : State} (h : s.claims = t.claims) (n : SlotNo) (g : Group) : s.stack n g = t.stack n g := by
  unfold State.stack; rw [h]

theorem State.ownerNumber_congr {s t : State} (h : s.claims = t.claims) (n : SlotNo) (g : Group) :
    s.ownerNumber n g = t.ownerNumber n g := by
  unfold State.ownerNumber; rw [State.owner_congr h]

theorem insertInStack_of_before {c : Claim} {l : List Claim} (h : ∀ d ∈ l, c.before d = true) :
    insertInStack c l = c :: l := by
  cases l with
  | nil => rfl
  | cons d rest => simp [insertInStack, h d]

/-- A claim goes to its place among those of an ordered stack that are kept. -/
theorem filter_insertInStack (keep : Claim → Bool) (c : Claim) {l : List Claim}
    (ordered : l.Pairwise (fun a b => b.before a = false)) :
    (insertInStack c l).filter keep = if keep c then insertInStack c (l.filter keep) else l.filter keep := by
  induction l with
  | nil => cases h : keep c <;> simp [insertInStack, h]
  | cons d rest ih =>
    rw [List.pairwise_cons] at ordered
    have step : insertInStack c (d :: rest) = if c.before d then c :: d :: rest else d :: insertInStack c rest := rfl
    rw [step]
    by_cases hc : c.before d = true
    · have first : ∀ e ∈ (d :: rest).filter keep, c.before e = true := fun e he => by
        rcases List.mem_cons.mp (List.mem_filter.mp he).1 with rfl | he
        · exact hc
        · exact Claim.before_trans' hc (ordered.1 e he)
      have head : insertInStack c ((d :: rest).filter keep) = c :: (d :: rest).filter keep :=
        insertInStack_of_before first
      rw [if_pos hc, List.filter_cons]
      split
      · exact head.symm
      · rfl
    · rw [if_neg hc, List.filter_cons, ih ordered.2, List.filter_cons]
      cases hd : keep d <;> cases hk : keep c <;> simp [insertInStack, hc]

/-- R57: the claims that are kept stand in their order. -/
theorem State.stack_filter {s t : State} {keep : Claim → Bool} (h : t.claims = s.claims.filter keep) (n : SlotNo)
    (g : Group) : t.stack n g = (s.stack n g).filter keep := by
  have list : ∀ cs : List Claim,
      { s with claims := cs.filter keep }.stack n g = ({ s with claims := cs }.stack n g).filter keep := by
    intro cs
    induction cs with
    | nil => rfl
    | cons c rest ih =>
      have ordered := State.stack_ordered { s with claims := rest } n g
      have insert := filter_insertInStack keep c ordered
      simp only [State.stack, List.filter_cons] at ih ordered insert ⊢
      by_cases on : (decide (c.slot = n) && decide (c.group = g)) = true <;> by_cases hk : keep c = true <;>
        simp only [on, hk, if_true, if_false, List.filter_cons, List.foldr_cons, Bool.false_eq_true] at insert ⊢
      · rw [insert, ih]
      · rw [insert, ih]
      · exact ih
      · exact ih
  rw [State.stack_congr (t := { s with claims := s.claims.filter keep }) h, list s.claims]

/-- A stack of which every claim is kept stays as it is. -/
theorem State.stack_kept {s t : State} {keep : Claim → Bool} (h : t.claims = s.claims.filter keep) {n : SlotNo}
    {g : Group} (all : ∀ c ∈ s.claims, c.slot = n → c.group = g → keep c = true) : t.stack n g = s.stack n g := by
  rw [State.stack_filter h, List.filter_eq_self]
  intro c hc
  obtain ⟨hm, hn, hg⟩ := State.mem_stack.mp hc
  exact all c hm hn hg

theorem State.owner_of_stack {s t : State} {n : SlotNo} {g : Group} (h : t.stack n g = s.stack n g) :
    t.owner n g = s.owner n g := by
  unfold State.owner; rw [h]

/-- R58: an owner that is kept stays owner, and a group without one gains none. -/
theorem State.owner_kept {s t : State} {keep : Claim → Bool} (h : t.claims = s.claims.filter keep) {n : SlotNo}
    {g : Group} (kept : ∀ c, s.owner n g = some c → keep c = true) : t.owner n g = s.owner n g := by
  unfold State.owner at kept ⊢
  rw [State.stack_filter h, List.find?_filter]
  cases ho : (s.stack n g).find? (fun c => decide (c.role = .live)) with
  | none =>
    rw [List.find?_eq_none] at ho ⊢
    intro c hc
    have := ho c hc
    simp_all
  | some c =>
    obtain ⟨live, before, after, split, none_before⟩ := List.find?_eq_some_iff_append.mp ho
    refine List.find?_eq_some_iff_append.mpr ⟨?_, before, after, split, fun d hd => ?_⟩
    · simpa [kept c ho] using live
    · have := none_before d hd; simp_all

/-- R56, R58: with its owner removed a group has another owner or none: the claims have numbers of their own. -/
theorem State.ownerNumber_ne_of_removed {s t : State} {keep : Claim → Bool} (h : t.claims = s.claims.filter keep)
    (numbers : (s.claims.map (·.number)).Nodup) {n : SlotNo} {g : Group} {c : Claim} (ho : s.owner n g = some c)
    (gone : keep c = false) : t.ownerNumber n g ≠ s.ownerNumber n g := by
  unfold State.ownerNumber
  rw [ho]
  cases hd : t.owner n g with
  | none => exact fun e => nomatch e
  | some d =>
    intro e
    obtain ⟨hm, -⟩ := State.owner_mem hd
    rw [h, List.mem_filter] at hm
    have same : d = c := List.inj_on_of_nodup_map numbers hm.1 (State.owner_mem ho).1 (Option.some.inj e)
    rw [same, gone] at hm
    exact absurd hm.2 (by decide)

/-! ### Present values -/

/-- R59, R115: a present value depends on its group's owner, record and parked value, and on the clock. -/
theorem State.present_congr {s t : State} {n : SlotNo} {g : Group} (now : s.now = t.now)
    (owner : s.owner n g = t.owner n g) (parked : (s.slot n).parked.get g = (t.slot n).parked.get g)
    (fades : (s.slot n).fades.get g = (t.slot n).fades.get g) : s.present n g = t.present n g := by
  unfold State.present State.runningFade State.fade State.beneath
  rw [now, owner, parked, fades]

/-! ### Which slot groups a link gained (R72) -/

theorem mem_allSlots (n : SlotNo) : n ∈ allSlots := List.mem_finRange n

theorem mem_gainedBy {s t : State} {k : Link} {x : SlotNo × Group} :
    x ∈ gainedBy s t k ↔
      (t.owner x.1 x.2).map (·.link) = some k ∧ t.ownerNumber x.1 x.2 ≠ s.ownerNumber x.1 x.2 := by
  obtain ⟨n, g⟩ := x
  have all : (n, g) ∈ allSlots.flatMap fun n => [(n, Group.aim), (n, .colour), (n, .level)] := by
    rw [List.mem_flatMap]; exact ⟨n, mem_allSlots n, by cases g <;> simp⟩
  simp only [gainedBy, List.mem_filter, all, true_and, Bool.and_eq_true, decide_eq_true_eq]

theorem gainedBy_congr {s t u : State} (h : t.claims = u.claims) (k : Link) : gainedBy s t k = gainedBy s u k := by
  unfold gainedBy
  congr 1; funext x
  rw [State.owner_congr h, State.ownerNumber_congr h]

/-- The slot groups gained are listed lowest slot first, each once. -/
theorem gainedBy_sorted (s t : State) (k : Link) :
    (gainedBy s t k).Pairwise (fun x y => x.1 ≤ y.1) ∧ (gainedBy s t k).Nodup := by
  have slots : allSlots.Pairwise (· < ·) := List.pairwise_lt_finRange 192
  have groups : ∀ {n : SlotNo} {x : SlotNo × Group}, x ∈ [(n, Group.aim), (n, .colour), (n, .level)] → x.1 = n := by
    intro n x hx
    simp only [List.mem_cons, List.not_mem_nil, or_false] at hx
    rcases hx with rfl | rfl | rfl <;> rfl
  constructor
  · refine List.Pairwise.filter _ (List.pairwise_flatMap.mpr ⟨fun n _ => ?_, slots.imp fun {a b} hab x hx y hy => ?_⟩)
    · simp
    · rw [groups hx, groups hy]; exact hab.le
  · refine List.Nodup.filter _ (List.nodup_flatMap.mpr ⟨fun n _ => by simp, slots.imp fun {a b} hab x hx hy => ?_⟩)
    rw [← groups hx, ← groups hy] at hab
    exact absurd hab (lt_irrefl _)

/-! ### The notices of restoration (R72) -/

theorem lowestSlot_eq {slots : List SlotNo} {n : SlotNo} (hn : n ∈ slots) (h : ∀ m ∈ slots, n ≤ m) :
    lowestSlot slots = n.val := by
  have fold : ∀ (l : List SlotNo) (a : Nat),
      (l.foldl (fun m n => min m n.val) a ≤ a) ∧ (∀ m ∈ l, l.foldl (fun m n => min m n.val) a ≤ m.val) ∧
        (l.foldl (fun m n => min m n.val) a = a ∨ ∃ m ∈ l, l.foldl (fun m n => min m n.val) a = m.val) := by
    intro l
    induction l with
    | nil => intro a; simp
    | cons b rest ih =>
      intro a
      obtain ⟨h1, h2, h3⟩ := ih (min a b.val)
      rw [List.foldl_cons]
      refine ⟨by omega, fun m hm => ?_, ?_⟩
      · rcases List.mem_cons.mp hm with rfl | hm
        · omega
        · exact h2 m hm
      · rcases h3 with h3 | ⟨m, hm, h3⟩
        · rcases Nat.le_total a b.val with hab | hab
          · exact .inl (by omega)
          · exact .inr ⟨b, List.mem_cons_self, by omega⟩
        · exact .inr ⟨m, List.mem_cons_of_mem _ hm, h3⟩
  obtain ⟨-, least, reached⟩ := fold slots 191
  have := least n hn
  unfold lowestSlot
  rcases reached with e | ⟨m, hm, e⟩
  · have := n.isLt; omega
  · have : n.val ≤ m.val := h m hm
    omega

/-- The notice of restoration that a list of gains makes for the link they belong to. -/
def gainNotices (cause : RestoreCause) (mine : List Gain) : List Notice :=
  if mine.isEmpty then []
  else [.claimRestored cause (PerGroup.make fun g => mine.any (fun x => decide (x.group = g)))
    (lowestSlot (mine.map (·.slot))) mine.length]

/-- R72: the notice does not depend on the order in which the groups were gained. -/
theorem gainNotices_eq {cause : RestoreCause} {mine : List Gain} {xs : List (SlotNo × Group)}
    (perm : xs.Perm (mine.map fun x => (x.slot, x.group))) (sorted : xs.Pairwise (fun x y => x.1 ≤ y.1)) :
    gainNotices cause mine = restoredNotices cause xs := by
  cases xs with
  | nil =>
    have : mine = [] := by simpa using perm.symm.eq_nil
    simp [gainNotices, this, restoredNotices]
  | cons x rest =>
    have length : mine.length = rest.length + 1 := by simpa using perm.length_eq.symm
    have filled : mine.isEmpty = false := by
      cases mine with
      | nil => cases length
      | cons => rfl
    have any : ∀ g, mine.any (fun y => decide (y.group = g)) = (x :: rest).any (fun y => decide (y.2 = g)) := fun g => by
      rw [perm.any_eq, List.any_map]; rfl
    have slots : ((x :: rest).map (·.1)).Perm (mine.map (·.slot)) := by
      have := perm.map Prod.fst
      rwa [List.map_map] at this
    have lowest : lowestSlot (mine.map (·.slot)) = x.1.val := by
      refine lowestSlot_eq (slots.mem_iff.mp (by simp)) fun m hm => ?_
      obtain ⟨y, hy, rfl⟩ := List.mem_map.mp (slots.mem_iff.mpr hm)
      rcases List.mem_cons.mp hy with rfl | hy
      · exact le_rfl
      · exact (List.pairwise_cons.mp sorted).1 y hy
    simp only [gainNotices, filled, restoredNotices, lowest, length, any, PerGroup.make]
    rfl

/-- Each link of a list without repetition is told once of what is its own. -/
theorem foldl_tell_link {f : State → Link → State} {ns : Link → List Notice}
    (h : ∀ s l k, (f s l).link k = if k = l then (ns l).foldl LinkRec.receive (s.link k) else s.link k)
    {ls : List Link} (nodup : ls.Nodup) (s : State) (k : Link) :
    (ls.foldl f s).link k = if k ∈ ls then (ns k).foldl LinkRec.receive (s.link k) else s.link k := by
  induction ls generalizing s with
  | nil => rfl
  | cons l rest ih =>
    obtain ⟨fresh, nodup⟩ := List.nodup_cons.mp nodup
    rw [List.foldl_cons, ih nodup, h]
    by_cases hk : k = l
    · subst hk; simp [fresh]
    · simp [hk]

theorem State.raiseRestored_link (s : State) (cause : RestoreCause) (gains : List Gain) :
    Told s (s.raiseRestored cause gains)
      (fun k => gainNotices cause (gains.filter (fun x => decide (x.link = k)))) := fun k => by
  unfold State.raiseRestored
  rw [foldl_tell_link (ns := fun k => gainNotices cause (gains.filter (fun x => decide (x.link = k)))) ?_ (by decide)]
  · cases k <;> rfl
  · intro s l k
    dsimp only
    by_cases none : (gains.filter (fun x => decide (x.link = l))).isEmpty = true
    · simp [gainNotices, none]
    · simp only [gainNotices, none, if_false, Bool.false_eq_true]
      rw [State.raiseTo_link]
      split <;> rfl

/-- The gains listed are the slot groups with another owner, each once, with the link of that owner. -/
def GainsListed (s t : State) (gains : List Gain) : Prop :=
  (gains.map fun x => (x.slot, x.group)).Nodup ∧
    ∀ x : Gain, x ∈ gains ↔
      (t.owner x.slot x.group).map (·.link) = some x.link ∧ t.ownerNumber x.slot x.group ≠ s.ownerNumber x.slot x.group

/-- R72: each link hears of the groups that it gained. -/
theorem State.raiseRestored_gained {s t : State} {cause : RestoreCause} {gains : List Gain}
    (listed : GainsListed s t gains) :
    Told t (t.raiseRestored cause gains) (fun k => restoredNotices cause (gainedBy s t k)) := fun k => by
  obtain ⟨once, all⟩ := listed
  obtain ⟨sorted, nodup⟩ := gainedBy_sorted s t k
  rw [State.raiseRestored_link]
  dsimp only
  rw [gainNotices_eq ?_ sorted]
  refine (List.perm_ext_iff_of_nodup nodup ?_).mpr fun x => ?_
  · exact List.Nodup.sublist (List.Sublist.map _ List.filter_sublist) once
  · rw [mem_gainedBy]
    simp only [List.mem_map, List.mem_filter, all, decide_eq_true_eq]
    constructor
    · exact fun h => ⟨⟨k, x.1, x.2⟩, ⟨h, rfl⟩, rfl⟩
    · rintro ⟨y, ⟨h, rfl⟩, rfl⟩; exact h

end Sys2Proof.Machine
end

section
/-! PROOF. Claims that leave by one event: their groups, their expiry entries and the gains (R66, R67, R72, R90). -/

namespace Sys2Proof.Machine

/-! ### The claims of a slot group -/

/-- Whether a claim stands on a slot group. -/
theorem any_on_iff {cs : List Claim} {n : SlotNo} {g : Group} :
    cs.any (fun c => decide (c.slot = n) && decide (c.group = g)) = true ↔ ∃ c ∈ cs, c.slot = n ∧ c.group = g := by
  simp only [List.any_eq_true, Bool.and_eq_true, decide_eq_true_eq]

theorem any_gone_iff {cs : List Claim} {gone : Claim → Bool} {n : SlotNo} {g : Group} :
    cs.any (fun c => gone c && decide (c.slot = n) && decide (c.group = g)) = true ↔
      ∃ c ∈ cs, gone c = true ∧ c.slot = n ∧ c.group = g := by
  simp only [List.any_eq_true, Bool.and_eq_true, decide_eq_true_eq, and_assoc]

theorem State.stack_isEmpty (s : State) (n : SlotNo) (g : Group) :
    (s.stack n g).isEmpty = !s.claims.any (fun c => decide (c.slot = n) && decide (c.group = g)) := by
  rw [Bool.eq_iff_iff, List.isEmpty_iff, Bool.not_eq_true', ← Bool.not_eq_true, any_on_iff,
    List.eq_nil_iff_forall_not_mem]
  simp only [State.mem_stack, not_exists, not_and]

/-- Every entry of the expiry list belongs to a claim of the pool (R97). -/
def State.EntriesOwned (s : State) : Prop := ∀ e ∈ s.expiryList, ∃ c ∈ s.claims, c.number = e.claim

theorem State.PoolsSound.entries_owned {s : State} (p : s.PoolsSound) : s.EntriesOwned := fun e he => by
  obtain ⟨c, hc, number, -⟩ := p.entry_runs e he
  exact ⟨c, hc, number⟩

theorem State.claim_isSome (s : State) (k : Nat) : (s.claim k).isSome = true ↔ ∃ c ∈ s.claims, c.number = k := by
  simp only [State.claim, List.find?_isSome, decide_eq_true_eq]

/-! ### Slots as one event leaves them -/

theorem FixturesKept.refl (s : State) : FixturesKept s s := fun _ => ⟨rfl, rfl, rfl, rfl⟩

theorem FixturesKept.trans {s t u : State} (h : FixturesKept s t) (k : FixturesKept t u) : FixturesKept s u := fun n => by
  obtain ⟨a, b, c, d⟩ := h n
  obtain ⟨a', b', c', d'⟩ := k n
  exact ⟨a'.trans a, b'.trans b, c'.trans c, d'.trans d⟩

/-- The parked value and the crossfade record that `ClaimsGone` leaves to one group, from which a claim was removed or
not. -/
def GroupLeft (s t : State) (fade : Nat) (touched : Bool) (n : SlotNo) (g : Group) : Prop :=
  if touched then
    if t.claims.any (fun c => decide (c.slot = n) && decide (c.group = g)) then
      (t.slot n).parked.get g = (s.slot n).parked.get g ∧
        (t.slot n).fades.get g =
          if t.ownerNumber n g = s.ownerNumber n g then (s.slot n).fades.get g
          else some { fromValue := s.present n g, start := { reading := s.now, old := false }, duration := fade }
    else (t.slot n).parked.get g = s.present n g ∧ (t.slot n).fades.get g = none
  else (t.slot n).parked.get g = (s.slot n).parked.get g ∧ (t.slot n).fades.get g = (s.slot n).fades.get g

/-- CHANGED as an event leaves it that changes owners (R74). -/
def ChangedMarked (s t : State) : Prop :=
  ∀ n, (t.slot n).flags.changed =
    ((s.slot n).flags.changed || allGroups.any (fun g => decide (t.ownerNumber n g ≠ s.ownerNumber n g)))

theorem claimsGone_iff {s t : State} {gone : Claim → Bool} {fade : Nat} :
    ClaimsGone s t gone fade ↔
      t.claims = s.claims.filter (fun c => !gone c) ∧
        t.expiryList = s.expiryList.filter (fun e => decide ((t.claim e.claim).isSome)) ∧
        (∀ n g, GroupLeft s t fade
          (s.claims.any (fun c => gone c && decide (c.slot = n) && decide (c.group = g))) n g) ∧
        ChangedMarked s t := by
  unfold ClaimsGone
  rw [forall_and]
  rfl

/-- The claims removed are those of the pool alone. -/
theorem ClaimsGone.congr {s t : State} {gone gone' : Claim → Bool} {fade : Nat} (h : ClaimsGone s t gone fade)
    (same : ∀ c ∈ s.claims, gone c = gone' c) : ClaimsGone s t gone' fade := by
  rw [claimsGone_iff] at h ⊢
  obtain ⟨claims, entries, groups, changed⟩ := h
  refine ⟨claims.trans (List.filter_congr fun c hc => by rw [same c hc]), entries, fun n g => ?_, changed⟩
  have touched : s.claims.any (fun c => gone c && decide (c.slot = n) && decide (c.group = g)) =
      s.claims.any (fun c => gone' c && decide (c.slot = n) && decide (c.group = g)) := by
    rw [Bool.eq_iff_iff, any_gone_iff, any_gone_iff]
    exact exists_congr fun c => and_congr_right fun hc => by rw [same c hc]
  rw [← touched]
  exact groups n g

/-! ### Two events on different groups -/

/-- No group has another owner by both of two events that follow each other. -/
def OwnersApart (s u t : State) : Prop := ∀ n g, u.owner n g = s.owner n g ∨ t.owner n g = u.owner n g

theorem State.ownerNumber_of_owner {s t : State} {n : SlotNo} {g : Group} (h : t.owner n g = s.owner n g) :
    t.ownerNumber n g = s.ownerNumber n g := by
  unfold State.ownerNumber; rw [h]

theorem GainsListed.nil {s t : State} (h : ∀ n g, t.ownerNumber n g = s.ownerNumber n g) : GainsListed s t [] :=
  ⟨List.nodup_nil, fun _ => ⟨(nomatch ·), fun hx => absurd (h _ _) hx.2⟩⟩

theorem GainsListed.append {s u t : State} {xs ys : List Gain} (apart : OwnersApart s u t) (h : GainsListed s u xs)
    (k : GainsListed u t ys) : GainsListed s t (xs ++ ys) := by
  obtain ⟨onceX, memX⟩ := h
  obtain ⟨onceY, memY⟩ := k
  refine ⟨?_, fun x => ?_⟩
  · rw [List.map_append, List.nodup_append]
    refine ⟨onceX, onceY, fun a ha b hb e => ?_⟩
    obtain ⟨x, hx, rfl⟩ := List.mem_map.mp ha
    obtain ⟨y, hy, rfl⟩ := List.mem_map.mp hb
    obtain ⟨hs, hg⟩ := Prod.mk.inj e
    obtain ⟨-, nx⟩ := (memX x).mp hx
    obtain ⟨-, ny⟩ := (memY y).mp hy
    rw [← hs, ← hg] at ny
    rcases apart x.slot x.group with same | same
    · exact nx (State.ownerNumber_of_owner same)
    · exact ny (State.ownerNumber_of_owner same)
  · rw [List.mem_append, memX, memY]
    rcases apart x.slot x.group with same | same <;> have number := State.ownerNumber_of_owner same
    · rw [number]
      exact ⟨fun h => h.resolve_left fun h => h.2 rfl, .inr⟩
    · rw [number, same]
      exact ⟨fun h => h.resolve_right fun h => h.2 rfl, .inl⟩

theorem ChangedMarked.trans {s u t : State} (apart : OwnersApart s u t) (h : ChangedMarked s u)
    (k : ChangedMarked u t) : ChangedMarked s t := fun n => by
  have either : ∀ g, decide (t.ownerNumber n g ≠ s.ownerNumber n g) =
      (decide (u.ownerNumber n g ≠ s.ownerNumber n g) || decide (t.ownerNumber n g ≠ u.ownerNumber n g)) := fun g => by
    rcases apart n g with same | same
    · simp [State.ownerNumber_of_owner same]
    · simp [State.ownerNumber_of_owner same]
  rw [k n, h n]
  simp only [allGroups, List.any_cons, List.any_nil, either, Bool.or_false]
  ac_rfl

/-- The claims that two removals pick stand on different groups. -/
def GroupsApart (s : State) (gone gone' : Claim → Bool) : Prop :=
  ∀ c ∈ s.claims, ∀ d ∈ s.claims, gone c = true → gone' d = true → ¬(c.slot = d.slot ∧ c.group = d.group)

section TwoRemovals

variable {s u t : State} {gone gone' : Claim → Bool} {fade : Nat}

/-- A group from which the first removal takes a claim is left alone by the second, or the other way about. -/
theorem GroupsApart.stacks (apart : GroupsApart s gone gone') (first : u.claims = s.claims.filter (fun c => !gone c))
    (second : t.claims = u.claims.filter (fun c => !gone' c)) (n : SlotNo) (g : Group) :
    (∀ c ∈ s.claims, c.slot = n → c.group = g → gone c = false) ∧ u.stack n g = s.stack n g ∨
      (∀ c ∈ s.claims, c.slot = n → c.group = g → gone' c = false) ∧ t.stack n g = u.stack n g := by
  by_cases some : ∃ c ∈ s.claims, c.slot = n ∧ c.group = g ∧ gone c = true
  · obtain ⟨c, hc, hn, hg, h⟩ := some
    have kept : ∀ d ∈ s.claims, d.slot = n → d.group = g → gone' d = false := fun d hd hdn hdg => by
      refine Bool.eq_false_iff.mpr fun h' => apart c hc d hd h h' ⟨hn.trans hdn.symm, hg.trans hdg.symm⟩
    refine .inr ⟨kept, State.stack_kept second fun d hd hdn hdg => ?_⟩
    rw [first] at hd
    simp [kept d (List.mem_filter.mp hd).1 hdn hdg]
  · have kept : ∀ c ∈ s.claims, c.slot = n → c.group = g → gone c = false := fun c hc hn hg =>
      Bool.eq_false_iff.mpr fun h => some ⟨c, hc, hn, hg, h⟩
    exact .inl ⟨kept, State.stack_kept first fun c hc hn hg => by simp [kept c hc hn hg]⟩

theorem ClaimsGone.owners_apart (h : ClaimsGone s u gone fade) (k : ClaimsGone u t gone' fade)
    (apart : GroupsApart s gone gone') : OwnersApart s u t := fun n g =>
  (apart.stacks h.1 k.1 n g).imp (fun h => State.owner_of_stack h.2) (fun h => State.owner_of_stack h.2)

theorem any_on_of_stack (h : t.stack n g = u.stack n g) :
    t.claims.any (fun c => decide (c.slot = n) && decide (c.group = g)) =
      u.claims.any (fun c => decide (c.slot = n) && decide (c.group = g)) := by
  have := (u.stack_isEmpty n g).symm.trans ((congrArg List.isEmpty h.symm).trans (t.stack_isEmpty n g))
  exact (Bool.not_inj this).symm

theorem ClaimsGone.trans (h : ClaimsGone s u gone fade) (k : ClaimsGone u t gone' fade) (now : u.now = s.now)
    (apart : GroupsApart s gone gone') :
    ClaimsGone s t (fun c => gone c || gone' c) fade := by
  have owners := h.owners_apart k apart
  have split := apart.stacks h.1 k.1
  rw [claimsGone_iff] at h k ⊢
  obtain ⟨claimsU, entriesU, groupsU, changedU⟩ := h
  obtain ⟨claimsT, entriesT, groupsT, changedT⟩ := k
  refine ⟨?_, ?_, fun n g => ?_, changedU.trans owners changedT⟩
  · rw [claimsT, claimsU, List.filter_filter]
    exact List.filter_congr fun c _ => by rw [Bool.not_or, Bool.and_comm]
  · rw [entriesT, entriesU, List.filter_filter]
    refine List.filter_congr fun e _ => ?_
    rw [Bool.and_eq_left_iff_imp]
    simp only [decide_eq_true_eq, State.claim_isSome]
    rintro ⟨c, hc, number⟩
    rw [claimsT] at hc
    exact ⟨c, (List.mem_filter.mp hc).1, number⟩
  · have left := groupsU n g
    have right := groupsT n g
    rcases split n g with ⟨kept, same⟩ | ⟨kept, same⟩
    · have none : s.claims.any (fun c => gone c && decide (c.slot = n) && decide (c.group = g)) = false := by
        rw [← Bool.not_eq_true, any_gone_iff]
        rintro ⟨c, hc, h, hn, hg⟩
        rw [kept c hc hn hg] at h
        exact nomatch h
      have touched : s.claims.any (fun c => (gone c || gone' c) && decide (c.slot = n) && decide (c.group = g)) =
          u.claims.any (fun c => gone' c && decide (c.slot = n) && decide (c.group = g)) := by
        rw [Bool.eq_iff_iff, any_gone_iff, any_gone_iff]
        constructor
        · rintro ⟨c, hc, h, hn, hg⟩
          rw [kept c hc hn hg] at h
          exact ⟨c, claimsU ▸ List.mem_filter.mpr ⟨hc, by rw [kept c hc hn hg]; rfl⟩, h, hn, hg⟩
        · rintro ⟨c, hc, h, hn, hg⟩
          rw [claimsU] at hc
          exact ⟨c, (List.mem_filter.mp hc).1, by rw [h, Bool.or_true], hn, hg⟩
      rw [none] at left
      obtain ⟨parked, fades⟩ := left
      have owner := State.owner_of_stack same
      unfold GroupLeft at right ⊢
      rw [State.present_congr now owner parked fades, State.ownerNumber_of_owner owner, parked, fades, now] at right
      rw [touched]
      exact right
    · have none : u.claims.any (fun c => gone' c && decide (c.slot = n) && decide (c.group = g)) = false := by
        rw [← Bool.not_eq_true, any_gone_iff]
        rintro ⟨c, hc, h, hn, hg⟩
        rw [claimsU] at hc
        rw [kept c (List.mem_filter.mp hc).1 hn hg] at h
        exact nomatch h
      have touched : s.claims.any (fun c => (gone c || gone' c) && decide (c.slot = n) && decide (c.group = g)) =
          s.claims.any (fun c => gone c && decide (c.slot = n) && decide (c.group = g)) := by
        rw [Bool.eq_iff_iff, any_gone_iff, any_gone_iff]
        refine exists_congr fun c => and_congr_right fun hc => ⟨?_, ?_⟩
        · rintro ⟨h, hn, hg⟩
          rw [kept c hc hn hg, Bool.or_false] at h
          exact ⟨h, hn, hg⟩
        · rintro ⟨h, hn, hg⟩
          exact ⟨by rw [h, Bool.true_or], hn, hg⟩
      rw [none] at right
      obtain ⟨parked, fades⟩ := right
      have owner := State.owner_of_stack same
      unfold GroupLeft at left ⊢
      rw [parked, fades, any_on_of_stack same, State.ownerNumber_of_owner owner, touched]
      exact left

end TwoRemovals

end Sys2Proof.Machine
end

section
/-! PROOF. One claim removed, and a list of them released (R66, R67, R72). -/

namespace Sys2Proof.Machine

/-! ### One claim removed (R66, R67) -/

section OneRemoval

variable (s : State) (c : Claim) (fade : Nat)

/-- Whether a claim owns its group. -/
def State.owns : Bool := decide (s.ownerNumber c.slot c.group = some c.number)

theorem State.removeClaim_claims :
    (s.removeClaim c fade).1.claims = s.claims.filter (fun d => !decide (d.number = c.number)) := by
  rw [State.removeClaim_frame]
  exact List.filter_congr fun d _ => decide_not

theorem State.removeClaim_entries :
    (s.removeClaim c fade).1.expiryList = s.expiryList.filter (fun e => decide (e.claim ≠ c.number)) := by
  rw [State.removeClaim_frame]; rfl

theorem State.removeClaim_slot (n : SlotNo) :
    (s.removeClaim c fade).1.slot n =
      if n = c.slot then
        { s.slot n with
          parked := if ((s.removeClaim c fade).1.stack n c.group).isEmpty then
              (s.slot n).parked.set c.group (s.present n c.group) else (s.slot n).parked
          fades := (s.slot n).fades.set c.group <|
            if ((s.removeClaim c fade).1.stack n c.group).isEmpty then none
            else if s.owns c then some (s.passiveRecord n c.group fade) else (s.slot n).fades.get c.group
          flags := { (s.slot n).flags with changed := (s.slot n).flags.changed || s.owns c } }
      else s.slot n := by
  by_cases hn : n = c.slot
  · subst hn
    have left : (s.removeClaim c fade).1.stack c.slot c.group = (s.dropClaim c.number).stack c.slot c.group :=
      State.stack_congr (by rw [State.removeClaim_frame]) _ _
    have slot : (s.dropClaim c.number).slot c.slot = s.slot c.slot := rfl
    rw [if_pos rfl, left]
    unfold State.removeClaim State.owns
    dsimp only
    split
    · split <;> rename_i owner <;>
        simp [owner, State.setChanged, State.setFade, State.setParked, slot]
    · split <;> rename_i owner <;>
        simp [owner, State.setChanged, State.setFade, slot]
  · rw [if_neg hn, State.removeClaim_slot_ne _ _ _ hn]

theorem State.removeClaim_gains :
    (s.removeClaim c fade).2 =
      if s.owns c then
        (((s.removeClaim c fade).1.owner c.slot c.group).map
          (fun d => ({ link := d.link, slot := c.slot, group := c.group } : Gain))).toList
      else [] := by
  have owner : (s.removeClaim c fade).1.owner c.slot c.group = (s.dropClaim c.number).owner c.slot c.group :=
    State.owner_congr (by rw [State.removeClaim_frame]) _ _
  have empty : ((s.dropClaim c.number).stack c.slot c.group).isEmpty = true →
      (s.dropClaim c.number).owner c.slot c.group = none := fun h => by
    unfold State.owner
    rw [List.isEmpty_iff.mp h]; rfl
  rw [owner]
  unfold State.removeClaim State.owns
  dsimp only
  split
  · rename_i h
    rw [empty h]
    simp
  · split <;> rfl

variable {s c} (mem : c ∈ s.claims) (numbers : (s.claims.map (·.number)).Nodup)
include mem numbers

theorem State.removeClaim_other {n : SlotNo} {g : Group} (h : ¬(n = c.slot ∧ g = c.group)) :
    (s.removeClaim c fade).1.stack n g = s.stack n g :=
  State.stack_kept (s.removeClaim_claims c fade) fun d hd hn hg => by
    rw [Bool.not_eq_true', decide_eq_false_iff_not]
    intro e
    rw [List.inj_on_of_nodup_map numbers hd mem e] at hn hg
    exact h ⟨hn.symm, hg.symm⟩

omit mem in
/-- R58, R66: a group has another owner exactly when its owner was removed. -/
theorem State.removeClaim_owner :
    if s.owns c then (s.removeClaim c fade).1.ownerNumber c.slot c.group ≠ s.ownerNumber c.slot c.group
    else (s.removeClaim c fade).1.owner c.slot c.group = s.owner c.slot c.group := by
  have claims := s.removeClaim_claims c fade
  split <;> rename_i h
  · obtain ⟨d, hd, number⟩ := Option.map_eq_some_iff.mp (of_decide_eq_true h)
    refine State.ownerNumber_ne_of_removed claims numbers hd ?_
    rw [number]; simp
  · refine State.owner_kept claims fun d hd => ?_
    rw [Bool.not_eq_true', decide_eq_false_iff_not]
    intro e
    refine h (decide_eq_true ?_)
    unfold State.ownerNumber
    rw [hd, Option.map_some, e]

theorem State.removeClaim_ownerNumber (n : SlotNo) (g : Group) :
    decide ((s.removeClaim c fade).1.ownerNumber n g ≠ s.ownerNumber n g) =
      (decide (n = c.slot ∧ g = c.group) && s.owns c) := by
  by_cases on : n = c.slot ∧ g = c.group
  · obtain ⟨rfl, rfl⟩ := on
    have owner := State.removeClaim_owner fade (c := c) numbers
    split at owner <;> rename_i h
    · simp [h, owner]
    · simp [h, State.ownerNumber_of_owner owner]
  · have same := State.ownerNumber_of_owner (State.owner_of_stack (State.removeClaim_other fade mem numbers on))
    simp [on, same]

theorem State.removeClaim_gone (owned : s.EntriesOwned) :
    ClaimsGone s (s.removeClaim c fade).1 (fun d => decide (d.number = c.number)) fade := by
  have claims := s.removeClaim_claims c fade
  have numbered := State.removeClaim_ownerNumber fade mem numbers
  refine claimsGone_iff.mpr ⟨claims, ?_, fun n g => ?_, fun n => ?_⟩
  · rw [State.removeClaim_entries]
    refine List.filter_congr fun e he => decide_eq_decide.mpr ?_
    rw [State.claim_isSome, claims]
    constructor
    · intro ne
      obtain ⟨d, hd, number⟩ := owned e he
      exact ⟨d, List.mem_filter.mpr ⟨hd, by simpa [number] using ne⟩, number⟩
    · rintro ⟨d, hd, number⟩
      simpa [number] using (List.mem_filter.mp hd).2
  · have touched : s.claims.any (fun d => decide (d.number = c.number) && decide (d.slot = n) && decide (d.group = g)) =
        decide (n = c.slot ∧ g = c.group) := by
      rw [Bool.eq_iff_iff, any_gone_iff, decide_eq_true_eq]
      constructor
      · rintro ⟨d, hd, e, rfl, rfl⟩
        rw [List.inj_on_of_nodup_map numbers hd mem (of_decide_eq_true e)]
        exact ⟨rfl, rfl⟩
      · rintro ⟨rfl, rfl⟩
        exact ⟨c, mem, decide_eq_true rfl, rfl, rfl⟩
    have number := numbered n g
    rw [touched]
    unfold GroupLeft
    by_cases on : n = c.slot ∧ g = c.group
    · obtain ⟨rfl, rfl⟩ := on
      have owner := State.removeClaim_owner fade (c := c) numbers
      rw [State.removeClaim_slot, if_pos rfl, State.stack_isEmpty]
      cases left : (s.removeClaim c fade).1.claims.any
          (fun d => decide (d.slot = c.slot) && decide (d.group = c.group)) with
      | false => simp
      | true =>
        split at owner <;> rename_i own
        · simp [own, owner, State.passiveRecord, State.stampNow]
        · simp [own, State.ownerNumber_of_owner owner]
    · rw [State.removeClaim_slot]
      simp only [on, decide_false, Bool.false_eq_true, if_false]
      by_cases hn : n = c.slot
      · have hg : g ≠ c.group := fun e => on ⟨hn, e⟩
        rw [if_pos hn]
        dsimp only
        rw [PerGroup.set_get, if_neg hg]
        refine ⟨?_, rfl⟩
        split
        · rw [PerGroup.set_get, if_neg hg]
        · rfl
      · rw [if_neg hn]; exact ⟨rfl, rfl⟩
  · have any : allGroups.any (fun g => decide ((s.removeClaim c fade).1.ownerNumber n g ≠ s.ownerNumber n g)) =
        (decide (n = c.slot) && s.owns c) := by
      rw [List.any_congr rfl (numbered n)]
      by_cases hn : n = c.slot
      · cases c.group <;> simp [hn, allGroups]
      · simp [hn, allGroups]
    rw [any, State.removeClaim_slot]
    by_cases hn : n = c.slot <;> simp [hn]

theorem State.removeClaim_listed : GainsListed s (s.removeClaim c fade).1 (s.removeClaim c fade).2 := by
  have numbered := State.removeClaim_ownerNumber fade mem numbers
  rw [State.removeClaim_gains]
  by_cases own : s.owns c = true
  · rw [if_pos own]
    refine ⟨?_, fun x => ?_⟩
    · cases (s.removeClaim c fade).1.owner c.slot c.group <;> simp
    · have other : (s.removeClaim c fade).1.ownerNumber x.slot x.group ≠ s.ownerNumber x.slot x.group ↔
          x.slot = c.slot ∧ x.group = c.group := by
        simpa [own] using Bool.eq_iff_iff.mp (numbered x.slot x.group)
      rw [other]
      simp only [Option.mem_toList, Option.map_eq_some_iff]
      constructor
      · rintro ⟨d, hd, rfl⟩
        exact ⟨⟨d, hd, rfl⟩, rfl, rfl⟩
      · obtain ⟨k, n, g⟩ := x
        rintro ⟨⟨d, hd, rfl⟩, rfl, rfl⟩
        exact ⟨d, hd, rfl⟩
  · rw [if_neg own]
    refine GainsListed.nil fun n g => ?_
    simpa [own] using numbered n g

end OneRemoval

theorem State.removeClaim_fixtures (s : State) (c : Claim) (fade : Nat) : FixturesKept s (s.removeClaim c fade).1 :=
  fun n => by
    rw [State.removeClaim_slot]
    split <;> exact ⟨rfl, rfl, rfl, rfl⟩

/-! ### A list of claims removed -/

/-- The claims of a list. -/
def listed (cs : List Claim) (d : Claim) : Bool := cs.any (fun c => decide (d.number = c.number))

/-- The gains of one removal stand before those of the removals after it. -/
theorem State.removeClaims_cons (s : State) (c : Claim) (cs : List Claim) (fade : Nat) :
    s.removeClaims (c :: cs) fade =
      (((s.removeClaim c fade).1.removeClaims cs fade).1,
        (s.removeClaim c fade).2 ++ ((s.removeClaim c fade).1.removeClaims cs fade).2) := by
  have collect : ∀ (cs : List Claim) (t : State) (gains : List Gain),
      cs.foldl (fun acc c => ((acc.1.removeClaim c fade).1, acc.2 ++ (acc.1.removeClaim c fade).2)) (t, gains) =
        ((t.removeClaims cs fade).1, gains ++ (t.removeClaims cs fade).2) := by
    intro cs
    induction cs with
    | nil => intro t gains; simp [State.removeClaims]
    | cons d rest ih =>
      intro t gains
      unfold State.removeClaims
      rw [List.foldl_cons, List.foldl_cons, ih, ih, List.append_assoc, List.nil_append]
  exact collect cs _ _

/-- R66, R67, R72: what the removal of claims of different groups leaves. -/
theorem State.removeClaims_gone (fade : Nat) {cs : List Claim} {s : State} (mem : ∀ c ∈ cs, c ∈ s.claims)
    (apart : cs.Pairwise (fun c d => ¬(c.slot = d.slot ∧ c.group = d.group)))
    (numbers : (s.claims.map (·.number)).Nodup) (owned : s.EntriesOwned) :
    ClaimsGone s (s.removeClaims cs fade).1 (listed cs) fade ∧ FixturesKept s (s.removeClaims cs fade).1 ∧
      (s.removeClaims cs fade).1 =
        { s with slots := (s.removeClaims cs fade).1.slots, claims := (s.removeClaims cs fade).1.claims
                 expiryList := (s.removeClaims cs fade).1.expiryList } ∧
      GainsListed s (s.removeClaims cs fade).1 (s.removeClaims cs fade).2 := by
  induction cs generalizing s with
  | nil =>
    refine ⟨claimsGone_iff.mpr ⟨?_, ?_, fun n g => ?_, fun n => ?_⟩, FixturesKept.refl s, rfl, GainsListed.nil fun _ _ => rfl⟩
    · exact (List.filter_eq_self.mpr fun _ _ => rfl).symm
    · refine (List.filter_eq_self.mpr fun e he => ?_).symm
      rw [decide_eq_true_eq, State.claim_isSome]
      exact owned e he
    · simp [GroupLeft, listed, State.removeClaims]
    · simp [State.removeClaims, allGroups]
  | cons c rest ih =>
    obtain ⟨first, apart⟩ := List.pairwise_cons.mp apart
    have hc := mem c List.mem_cons_self
    have one := State.removeClaim_gone fade hc numbers owned
    have claims := s.removeClaim_claims c fade
    have others : ∀ d ∈ rest, d ∈ (s.removeClaim c fade).1.claims := fun d hd => by
      rw [claims]
      refine List.mem_filter.mpr ⟨mem d (List.mem_cons_of_mem _ hd), ?_⟩
      rw [Bool.not_eq_true', decide_eq_false_iff_not]
      intro e
      rw [List.inj_on_of_nodup_map numbers (mem d (List.mem_cons_of_mem _ hd)) hc e] at hd
      exact first c hd ⟨rfl, rfl⟩
    have numbers' : ((s.removeClaim c fade).1.claims.map (·.number)).Nodup := by
      rw [claims]; exact List.Nodup.sublist (List.filter_sublist.map _) numbers
    have owned' : (s.removeClaim c fade).1.EntriesOwned := fun e he => by
      rw [one.2.1] at he
      exact (State.claim_isSome _ _).mp (of_decide_eq_true (List.mem_filter.mp he).2)
    obtain ⟨gone, fixtures, frame, gains⟩ := ih others apart numbers' owned'
    have groups : GroupsApart s (fun d => decide (d.number = c.number)) (listed rest) := by
      intro d hd e he isC isRest
      obtain ⟨x, hx, same⟩ := List.any_eq_true.mp isRest
      rw [List.inj_on_of_nodup_map numbers hd hc (of_decide_eq_true isC),
        List.inj_on_of_nodup_map numbers he (mem x (List.mem_cons_of_mem _ hx)) (of_decide_eq_true same)]
      exact first x hx
    have frame1 := s.removeClaim_frame c fade
    have now : (s.removeClaim c fade).1.now = s.now := by rw [frame1]; rfl
    rw [State.removeClaims_cons]
    refine ⟨(one.trans gone now groups).congr fun d _ => rfl, (s.removeClaim_fixtures c fade).trans fixtures, ?_,
      (State.removeClaim_listed fade hc numbers).append (one.owners_apart gone groups) gains⟩
    dsimp only
    rw [frame, frame1]
    rfl

/-- R66, R67, R72: a release of claims, one of a group at most, leaves their groups as `ClaimsGone` says, and each link
hears of the groups that it gained. -/
theorem State.releaseClaims_gone {s : State} (p : s.PoolsSound) {cs : List Claim} {gone : Claim → Bool} (fade : Nat)
    (cause : RestoreCause) (mem : ∀ c, c ∈ cs ↔ c ∈ s.claims ∧ gone c = true)
    (apart : cs.Pairwise (fun c d => ¬(c.slot = d.slot ∧ c.group = d.group))) :
    ClaimsGone s (s.releaseClaims cs fade cause) gone fade ∧ FixturesKept s (s.releaseClaims cs fade cause) ∧
      s.releaseClaims cs fade cause =
        { s with links := (s.releaseClaims cs fade cause).links, slots := (s.releaseClaims cs fade cause).slots
                 claims := (s.releaseClaims cs fade cause).claims
                 expiryList := (s.releaseClaims cs fade cause).expiryList } ∧
      Told s (s.releaseClaims cs fade cause)
        (fun k => restoredNotices cause (gainedBy s (s.releaseClaims cs fade cause) k)) := by
  obtain ⟨claims, fixtures, frame, gains⟩ :=
    State.removeClaims_gone fade (fun c hc => ((mem c).mp hc).1) apart p.numbers_differ p.entries_owned
  have told := State.raiseRestored_gained (cause := cause) gains
  have notices := ((s.removeClaims cs fade).1.raiseRestored_hear cause (s.removeClaims cs fade).2).2
  have exactly : ∀ c ∈ s.claims, listed cs c = gone c := fun c hc => by
    rw [Bool.eq_iff_iff]
    constructor
    · intro h
      obtain ⟨d, hd, number⟩ := List.any_eq_true.mp h
      obtain ⟨hd, picked⟩ := (mem d).mp hd
      rwa [List.inj_on_of_nodup_map p.numbers_differ hc hd (of_decide_eq_true number)]
    · intro h
      exact List.any_eq_true.mpr ⟨c, (mem c).mpr ⟨hc, h⟩, decide_eq_true rfl⟩
  unfold State.releaseClaims
  dsimp only
  generalize (s.removeClaims cs fade).1.raiseRestored cause (s.removeClaims cs fade).2 = t at told notices
  refine ⟨?_, ?_, ?_, ?_⟩
  · rw [notices]; exact claims.congr exactly
  · rw [notices]; exact fixtures
  · rw [notices, frame]
  · intro k
    have links : (s.removeClaims cs fade).1.link k = s.link k := by
      unfold State.link; rw [State.removeClaims_links]
    have same : t.claims = (s.removeClaims cs fade).1.claims := by rw [notices]
    rw [told k, links]
    dsimp only
    rw [gainedBy_congr same]

/-- R66: the claims of one link stand on different groups. -/
theorem State.PoolsSound.link_apart {s : State} (p : s.PoolsSound) (l : Link) :
    (s.claims.filter (fun c => decide (c.link = l))).Pairwise (fun c d => ¬(c.slot = d.slot ∧ c.group = d.group)) := by
  have distinct : s.claims.Pairwise (· ≠ ·) := List.Nodup.of_map _ p.numbers_differ
  refine (distinct.filter _).imp_of_mem fun {c d} hc hd ne on => ?_
  obtain ⟨hc, lc⟩ := List.mem_filter.mp hc
  obtain ⟨hd, ld⟩ := List.mem_filter.mp hd
  exact ne (p.one_per_link c hc d hd ((of_decide_eq_true lc).trans (of_decide_eq_true ld).symm) on.1 on.2)

end Sys2Proof.Machine
end

section
/-! PROOF. A change of the pair record: roles, owners, crossfades and notices (R60, R70, R72, R77, R85, R86). -/

namespace Sys2Proof.Machine

/-! ### The roles of the claims (R60, R77) -/

theorem Pair.roleFor_feed (p : Pair) {l : Link} (h : l.tier ≠ 2) : p.roleFor l = .live := by
  have : l ≠ p.standbyLink := by
    rintro rfl
    unfold Pair.standbyLink at h
    cases hp : p.active <;> rw [hp] at h <;> exact h rfl
  simp [Pair.roleFor, this]

theorem mem_consoleGroups {s : State} {x : SlotNo × Group} :
    x ∈ s.consoleGroups ↔ ∃ c ∈ s.claims, c.link.tier = 2 ∧ c.slot = x.1 ∧ c.group = x.2 := by
  obtain ⟨n, g⟩ := x
  simp only [State.consoleGroups, List.mem_eraseDups, List.mem_map, List.mem_filter, decide_eq_true_eq, Prod.mk.injEq,
    and_assoc]

theorem State.consoleGroups_nodup (s : State) : s.consoleGroups.Nodup := by
  unfold State.consoleGroups
  rw [lawful_beq_subsingleton (instBEqProd : BEq (SlotNo × Group)) instBEqOfDecidableEq]
  exact nodup_eraseDups _ _ le_rfl

/-- R77: a group on which no console link has a claim keeps its stack. -/
theorem State.withRoles_stack {s : State} (sound : s.RolesSound) (p : Pair) {n : SlotNo} {g : Group}
    (h : (n, g) ∉ s.consoleGroups) : (s.withRoles p).stack n g = s.stack n g := by
  unfold State.stack State.withRoles
  dsimp only
  congr 1
  rw [List.filter_map]
  refine (List.map_congr_left fun c hc => ?_).trans (List.map_id _)
  obtain ⟨hc, on⟩ := List.mem_filter.mp hc
  simp only [Function.comp_apply, Bool.and_eq_true, decide_eq_true_eq] at on
  have feed : c.link.tier ≠ 2 := fun tier => h (mem_consoleGroups.mpr ⟨c, hc, tier, on⟩)
  have role := sound c hc
  rw [Pair.roleFor_feed _ feed] at role ⊢
  exact role ▸ rfl

/-! ### The groups that change owner (R70) -/

/-- Whether a group's owner differs between two states. -/
def moved (s w : State) (x : SlotNo × Group) : Bool := decide (s.ownerNumber x.1 x.2 ≠ w.ownerNumber x.1 x.2)

/-- The gain of the group's owner, where it has one. -/
def gainOf (w : State) (x : SlotNo × Group) : Option Gain :=
  (w.owner x.1 x.2).map (fun d => ({ link := d.link, slot := x.1, group := x.2 } : Gain))

theorem State.roleChangeOn_eq {s w u : State} {gains : List Gain} (claims : u.claims = w.claims) (fade : Nat)
    (x : SlotNo × Group) :
    s.roleChangeOn fade (u, gains) x =
      if moved s w x then
        ((u.setFade x.1 x.2 (some (s.passiveRecord x.1 x.2 fade))).setChanged x.1, gains ++ (gainOf w x).toList)
      else (u, gains) := by
  unfold State.roleChangeOn moved gainOf
  dsimp only
  rw [State.ownerNumber_congr claims, State.owner_congr claims]
  by_cases same : s.ownerNumber x.1 x.2 = w.ownerNumber x.1 x.2 <;> simp [same]

/-- The record of a slot when a list of groups has had its crossfades. -/
def Slot.roleChanged (s w : State) (fade : Nat) (gs : List (SlotNo × Group)) (n : SlotNo) (x : Slot) : Slot :=
  { x with
    fades := PerGroup.make fun g =>
      if (n, g) ∈ gs ∧ moved s w (n, g) = true then some (s.passiveRecord n g fade) else x.fades.get g
    flags := { x.flags with
      changed := x.flags.changed || allGroups.any (fun g => decide ((n, g) ∈ gs) && moved s w (n, g)) } }

/-- R70, R72: what the passage through the groups leaves of the slots, and the gains it lists. -/
theorem State.foldl_roleChangeOn (s w : State) (fade : Nat) (gs : List (SlotNo × Group)) :
    (gs.foldl (s.roleChangeOn fade) (w, [])).1 =
        { w with slots := (gs.foldl (s.roleChangeOn fade) (w, [])).1.slots } ∧
      (∀ n, (gs.foldl (s.roleChangeOn fade) (w, [])).1.slot n = Slot.roleChanged s w fade gs n (w.slot n)) ∧
      (gs.foldl (s.roleChangeOn fade) (w, [])).2 = (gs.filter (moved s w)).filterMap (gainOf w) := by
  induction gs using List.reverseRecOn with
  | nil =>
    refine ⟨rfl, fun n => ?_, rfl⟩
    simp only [Slot.roleChanged, List.not_mem_nil, false_and, if_false, decide_false, Bool.false_and, allGroups,
      List.any_cons, List.any_nil, Bool.or_false]
    have fades : (PerGroup.make fun g => (w.slot n).fades.get g) = (w.slot n).fades :=
      PerGroup.get_ext fun g => PerGroup.make_get _ _
    rw [fades]
    rfl
  | append_singleton gs x ih =>
    rw [List.foldl_append, List.foldl_cons, List.foldl_nil]
    generalize gs.foldl (s.roleChangeOn fade) (w, []) = acc at ih
    obtain ⟨u, gains⟩ := acc
    obtain ⟨frame, slots, listed⟩ := ih
    dsimp only at frame slots listed
    rw [State.roleChangeOn_eq (w := w) (by rw [frame])]
    by_cases hx : moved s w x = true
    · rw [if_pos hx]
      refine ⟨?_, fun n => ?_, ?_⟩
      · dsimp only; rw [frame]; rfl
      · obtain ⟨m, h⟩ := x
        dsimp only [State.setChanged, State.setFade]
        rw [State.setSlot_slot_self, State.setSlot_setSlot, State.setSlot_slot]
        by_cases hn : n = m
        · subst hn
          rw [if_pos rfl, slots]
          unfold Slot.roleChanged
          congr 1
          · refine PerGroup.get_ext fun g => ?_
            rw [PerGroup.set_get, PerGroup.make_get, PerGroup.make_get]
            by_cases hg : g = h
            · subst hg; simp [hx]
            · simp [hg]
          · cases h <;> simp [allGroups, hx]
        · rw [if_neg hn, slots]
          simp [Slot.roleChanged, hn]
      · simp [listed, hx, List.filter_append, List.filterMap_append, List.filterMap_cons]
        cases gainOf w x <;> rfl
    · rw [if_neg hx]
      refine ⟨frame, fun n => ?_, ?_⟩
      · have same : ∀ g, ((n, g) ∈ gs ++ [x] ∧ moved s w (n, g) = true) ↔ ((n, g) ∈ gs ∧ moved s w (n, g) = true) :=
          fun g => by
            rw [List.mem_append, List.mem_singleton]
            exact ⟨fun ⟨h, m⟩ => ⟨h.resolve_right fun e => hx (e ▸ m), m⟩, fun ⟨h, m⟩ => ⟨.inl h, m⟩⟩
        have same' : ∀ g, (decide ((n, g) ∈ gs ++ [x]) && moved s w (n, g)) =
            (decide ((n, g) ∈ gs) && moved s w (n, g)) := fun g => by
          rw [Bool.eq_iff_iff, Bool.and_eq_true, Bool.and_eq_true, decide_eq_true_eq, decide_eq_true_eq]; exact same g
        dsimp only
        rw [slots]
        simp only [Slot.roleChanged, same, same']
      · simp [listed, hx, List.filter_append]

/-- R70, R72: the gains of groups that hold every group with another owner. -/
theorem gainsListed_of_groups {s w : State} {gs : List (SlotNo × Group)} (nodup : gs.Nodup)
    (all : ∀ x, moved s w x = true → x ∈ gs) : GainsListed s w ((gs.filter (moved s w)).filterMap (gainOf w)) := by
  refine ⟨?_, fun x => ?_⟩
  · have names : ((gs.filter (moved s w)).filterMap (gainOf w)).map (fun x => (x.slot, x.group)) =
        (gs.filter (moved s w)).filter (fun x => (w.owner x.1 x.2).isSome) := by
      rw [List.map_filterMap, ← List.filterMap_eq_filter (p := fun x : SlotNo × Group => (w.owner x.1 x.2).isSome)]
      refine List.filterMap_congr fun x _ => ?_
      unfold gainOf Option.guard
      cases h : w.owner x.1 x.2 <;> simp [h]
    rw [names]
    exact (nodup.filter _).filter _
  · simp only [List.mem_filterMap, List.mem_filter, gainOf, Option.map_eq_some_iff]
    constructor
    · rintro ⟨y, ⟨-, h⟩, d, hd, rfl⟩
      exact ⟨⟨d, hd, rfl⟩, (of_decide_eq_true h).symm⟩
    · obtain ⟨k, n, g⟩ := x
      rintro ⟨⟨d, hd, rfl⟩, ne⟩
      have h : moved s w (n, g) = true := decide_eq_true ne.symm
      exact ⟨(n, g), ⟨all _ h, h⟩, d, hd, rfl⟩

/-! ### The change of roles (R70, R77) -/

/-- R70, R72, R77: a change of the pair record leaves the roles, the groups and the notices that it should. -/
theorem State.changeRoles_changed {s : State} (sound : s.RolesSound) (p : Pair) (fade : Nat) :
    RolesChanged s (s.changeRoles p fade) p fade ∧
      s.changeRoles p fade =
        { s with links := (s.changeRoles p fade).links, pair := (s.changeRoles p fade).pair
                 slots := (s.changeRoles p fade).slots, claims := (s.changeRoles p fade).claims } ∧
      Told s (s.changeRoles p fade) (fun k => restoredNotices .pair (gainedBy s (s.changeRoles p fade) k)) := by
  have all : ∀ x, moved s (s.withRoles p) x = true → x ∈ s.consoleGroups := fun x hx => by
    by_contra h
    exact of_decide_eq_true hx (State.ownerNumber_of_owner (State.owner_of_stack (State.withRoles_stack sound p h))).symm
  obtain ⟨frame, slots, listed⟩ := s.foldl_roleChangeOn (s.withRoles p) fade s.consoleGroups
  have gains := gainsListed_of_groups s.consoleGroups_nodup all
  rw [← listed] at gains
  unfold State.changeRoles
  dsimp only
  generalize s.consoleGroups.foldl (s.roleChangeOn fade) (s.withRoles p, []) = done at frame slots gains ⊢
  obtain ⟨u, gained⟩ := done
  dsimp only at frame slots gains ⊢
  have claims : u.claims = (s.withRoles p).claims := by rw [frame]
  have told : Told u (u.raiseRestored .pair gained) (fun k => restoredNotices .pair (gainedBy s u k)) :=
    State.raiseRestored_gained (by rw [frame]; exact gains)
  have notices := (u.raiseRestored_hear .pair gained).2
  have picked : ∀ n g, ((n, g) ∈ s.consoleGroups ∧ moved s (s.withRoles p) (n, g) = true) ↔
      u.ownerNumber n g ≠ s.ownerNumber n g := fun n g => by
    rw [State.ownerNumber_congr claims, and_iff_right_of_imp (all _), moved, decide_eq_true_eq, ne_comm]
  have changed : RolesChanged s u p fade := by
    refine ⟨by rw [frame]; rfl, claims, fun n => ?_, fun n => ⟨?_, ?_⟩, fun n g => ?_⟩
    · rw [slots]; exact ⟨rfl, rfl, rfl, rfl⟩
    · rw [slots]; rfl
    · rw [slots]
      simp only [← picked, Bool.decide_and, Bool.decide_eq_true]
      rfl
    · rw [slots]
      simp only [Slot.roleChanged, PerGroup.make_get, picked, ite_not]
      rfl
  generalize u.raiseRestored .pair gained = t at told notices
  refine ⟨by rw [notices]; exact changed, by rw [notices, frame]; rfl, fun k => ?_⟩
  have link : u.link k = s.link k := by rw [frame]; rfl
  have same : t.claims = u.claims := by rw [notices]
  rw [told k, link]
  dsimp only
  rw [gainedBy_congr same]

/-! ### PAIR_CHANGED (R86) -/

theorem State.raisePairChanged_pairNotices (s : State) (cause : PairCause) (fade : Nat) :
    Told s (s.raisePairChanged cause fade) (pairNotices s.pair cause fade) := fun k => by
  unfold State.raisePairChanged
  rw [State.raiseEach_link _ _ _ (by decide)]
  cases k <;> rfl

/-- R72, R77, R86: a change of the pair record with the notices of restoration, and then the PAIR_CHANGED. -/
theorem State.changeRoles_raised {s : State} (sound : s.RolesSound) (p : Pair) (fade : Nat) (cause : PairCause) :
    ∀ t, t = (s.changeRoles p fade).raisePairChanged cause fade →
      RolesChanged s t p fade ∧ t = { s with links := t.links, pair := t.pair, slots := t.slots, claims := t.claims } ∧
        Told s t (fun k => restoredNotices .pair (gainedBy s t k) ++ pairNotices t.pair cause fade k) := by
  rintro t rfl
  obtain ⟨changed, frame, told⟩ := State.changeRoles_changed sound p fade
  have notices := State.raisePairChanged_pairNotices (s.changeRoles p fade) cause fade
  have links : (s.changeRoles p fade).raisePairChanged cause fade =
      { s.changeRoles p fade with links := ((s.changeRoles p fade).raisePairChanged cause fade).links } :=
    State.raiseEach_frame _ _ _
  generalize (s.changeRoles p fade).raisePairChanged cause fade = t at links notices
  refine ⟨?_, ?_, ?_⟩
  · rw [links]; exact changed
  · rw [links]; exact frame ▸ rfl
  · have claims : t.claims = (s.changeRoles p fade).claims := by rw [links]
    have pair : t.pair = (s.changeRoles p fade).pair := by rw [links]
    intro k
    rw [notices k, told k, pair]
    dsimp only
    rw [gainedBy_congr claims, List.foldl_append]

end Sys2Proof.Machine
end

section
/-! PROOF. Silence of a link: of a feed (R15, R66, R72) and of a console (R14, R81, R85). -/

namespace Sys2Proof.Machine

/-! ### A link that becomes SILENT (R10, R15) -/

theorem LinkRec.flush_silenced (r : LinkRec) : Silenced r r.flush := by
  unfold Silenced LinkRec.flush
  cases r.sending <;> rfl

/-- R8: a link that is not LIVE has no notice. -/
theorem Told.link_of_not_live {s t : State} {ns : Link → List Notice} (h : Told s t ns) {k : Link}
    (silent : (s.link k).state ≠ .live) : t.link k = s.link k := by
  rw [h k]
  generalize ns k = notices
  induction notices with
  | nil => rfl
  | cons n rest ih => rw [List.foldl_cons, LinkRec.receive_of_not_live n silent, ih]

/-- The links when one of them has been silenced and the others have been told. -/
theorem Told.silenced {s t : State} {l : Link} {ns : Link → List Notice} (h : Told (s.setLink l (s.link l).flush) t ns) :
    Silenced (s.link l) (t.link l) ∧
      ∀ k, k ≠ l →
        t.link k = { s.link k with notices := (t.link k).notices, noticeOverflow := (t.link k).noticeOverflow } ∧
          Hears (s.link k) (t.link k) (ns k) := by
  constructor
  · rw [h.link_of_not_live (by rw [State.setLink_link_self]; exact fun e => nomatch e), State.setLink_link_self]
    exact (s.link l).flush_silenced
  · intro k hk
    have frame := h.hear k
    have hears := h.hears k
    rw [State.setLink_link_ne _ _ hk] at frame hears
    exact ⟨frame, hears⟩

theorem State.execSilenceTimeout_eq {s : State} (running : s.inReset = false) (l : Link) :
    exec (.silenceTimeout l) s = .next (if s.timedOut l (s.link l).silenceLimit then s.silence l else s) :=
  congrArg Host.Outcome.next (State.whenRunning_of_running running _)

theorem State.timedOut_iff {s : State} {l : Link} {limit : Nat} :
    s.timedOut l limit = true ↔ (s.link l).state = .live ∧ limit ≤ elapsed (s.link l).lastGood s.now := by
  rw [State.timedOut, Bool.and_eq_true, decide_eq_true_eq, decide_eq_true_eq]

/-! ### A feed (R15, R66, R67, R72) -/

theorem State.setLink_poolsSound {s : State} (p : s.PoolsSound) (l : Link) (r : LinkRec) : (s.setLink l r).PoolsSound where
  claims_fit := p.claims_fit
  numbers_differ := p.numbers_differ
  numbers_fit := p.numbers_fit
  one_per_link := p.one_per_link
  queues_fit := p.queues_fit
  orders_differ := p.orders_differ
  orders_past := p.orders_past
  queue_behind_running := p.queue_behind_running
  steps_fit := p.steps_fit
  entries_differ := p.entries_differ
  entry_runs := p.entry_runs
  running_has_entry := p.running_has_entry
  settled := p.settled

/-- R15, R66, R67, R72: a feed that becomes SILENT loses its claims with its loss fade. -/
theorem State.silence_feed {s : State} (p : s.PoolsSound) {l : Link} (feed : l.tier ≠ 2) :
    ClaimsGone s (s.silence l) (fun c => decide (c.link = l)) (s.link l).lossFade ∧ FixturesKept s (s.silence l) ∧
      s.silence l =
        { s with links := (s.silence l).links, slots := (s.silence l).slots, claims := (s.silence l).claims
                 expiryList := (s.silence l).expiryList } ∧
      Told (s.setLink l (s.link l).flush) (s.silence l)
        (fun k => restoredNotices .silence (gainedBy s (s.silence l) k)) := by
  have sound := State.setLink_poolsSound p l (s.link l).flush
  have released := State.releaseClaims_gone sound (gone := fun c => decide (c.link = l)) (s.link l).lossFade .silence
    (fun c => List.mem_filter) (sound.link_apart l)
  have silence : s.silence l = (s.setLink l (s.link l).flush).releaseClaims
      (s.claims.filter (fun c => decide (c.link = l))) (s.link l).lossFade .silence := by
    unfold State.silence
    dsimp only
    rw [if_neg feed, State.setLink_link_self]
    rfl
  rw [silence]
  obtain ⟨gone, fixtures, frame, told⟩ := released
  exact ⟨gone, fixtures, frame.trans rfl, told⟩

/-- Settles O9: the claims of the silenced feed are those of its link, one of each group at most. -/
theorem silenceReleasesAFeed : Obligations.SilenceReleasesAFeed := by
  refine ⟨fun s l running feed pools live due => ?_, fun s l running early => ?_⟩
  · have tier : l.tier ≠ 2 := by rcases feed with rfl | rfl <;> decide
    obtain ⟨gone, fixtures, frame, told⟩ := State.silence_feed pools tier
    obtain ⟨silenced, others⟩ := told.silenced
    refine ⟨s.silence l, ?_, silenced, gone, fixtures, others, frame⟩
    rw [State.execSilenceTimeout_eq running, if_pos (State.timedOut_iff.mpr ⟨live, due⟩)]
  · rw [State.execSilenceTimeout_eq running, if_neg]
    rw [State.timedOut_iff]
    rintro ⟨live, due⟩
    rcases early with h | h
    · exact h live
    · omega

/-! ### A console (R14, R81, R85) -/

theorem Pair.standbyLink_ne_activeLink (p : Pair) : p.standbyLink ≠ p.activeLink := by
  unfold Pair.standbyLink Pair.activeLink
  cases p.active <;> decide

theorem Pair.console (p : Pair) {l : Link} (h : l = .cl0 ∨ l = .cl1) : l = p.activeLink ∨ l = p.standbyLink := by
  unfold Pair.standbyLink Pair.activeLink
  rcases h with rfl | rfl <;> cases p.active <;> decide

/-- R77: a pair record that gives every link the role it had leaves claims and slots as they are. -/
theorem RolesChanged.of_roles {s t : State} {p : Pair} {fade : Nat} (sound : s.RolesSound)
    (roles : ∀ l, p.roleFor l = s.pair.roleFor l) (pair : t.pair = p) (claims : t.claims = s.claims)
    (slots : t.slots = s.slots) : RolesChanged s t p fade := by
  have slot : ∀ n, t.slot n = s.slot n := fun n => by unfold State.slot; rw [slots]
  have number : ∀ n g, t.ownerNumber n g = s.ownerNumber n g := State.ownerNumber_congr claims
  refine ⟨pair, ?_, fun n => ?_, fun n => ⟨?_, ?_⟩, fun n g => ?_⟩
  · rw [claims]
    refine ((List.map_congr_left fun c hc => ?_).trans (List.map_id _)).symm
    have role := sound c hc
    rw [← roles] at role
    exact role ▸ rfl
  · rw [slot]; exact ⟨rfl, rfl, rfl, rfl⟩
  · rw [slot]
  · simp [slot, number, allGroups]
  · rw [slot, number, if_pos rfl]

theorem State.raisePairChanged_frame (s : State) (cause : PairCause) (fade : Nat) :
    s.raisePairChanged cause fade = { s with links := (s.raisePairChanged cause fade).links } :=
  State.raiseEach_frame _ _ _

/-- The pair record without override and without an ask. -/
def Pair.settled (p : Pair) : Pair := { p with override := false, askPending := false }

theorem Pair.settled_eq {p : Pair} (override : p.override = false) : p.settled = { p with askPending := false } := by
  unfold Pair.settled
  rw [← override]

theorem Pair.settled_roleFor {p : Pair} (override : p.override = false) (l : Link) :
    p.settled.roleFor l = p.roleFor l := by
  rw [Pair.settled_eq override]; rfl

/-- R81: the notices of silence of the STANDBY console. -/
def standbySilentNotices (s t : State) (k : Link) : List Notice :=
  if s.pair.override then
    restoredNotices .pair (gainedBy s t k) ++ pairNotices t.pair .standbySilent s.pair.failoverFade k
  else if s.pair.askPending then pairNotices t.pair .standbySilent 0 k
  else []

/-- R81: what silence of the STANDBY console leaves of the pair. -/
theorem State.standbySilent_changed {s : State} (sound : s.RolesSound) :
    ∀ t, t = s.standbySilent →
      RolesChanged s t s.pair.settled s.pair.failoverFade ∧
        t = { s with links := t.links, pair := t.pair, slots := t.slots, claims := t.claims } ∧
        Told s t (standbySilentNotices s t) := by
  intro t ht
  unfold State.standbySilent at ht
  unfold standbySilentNotices
  cases override : s.pair.override
  · have roles := Pair.settled_roleFor override
    cases ask : s.pair.askPending
    · have pair : s.pair.settled = s.pair := by rw [Pair.settled_eq override, ← ask]
      have same : t = s := by simpa [override, ask] using ht
      subst same
      exact ⟨RolesChanged.of_roles sound roles pair.symm rfl rfl, rfl, fun k => rfl⟩
    · have raised : t = { s with pair := s.pair.settled }.raisePairChanged .standbySilent 0 := by
        simpa [override, ask, Pair.settled_eq override] using ht
      have told := State.raisePairChanged_pairNotices { s with pair := s.pair.settled } .standbySilent 0
      have frame := State.raisePairChanged_frame { s with pair := s.pair.settled } .standbySilent 0
      rw [← raised] at told frame
      have pair : t.pair = s.pair.settled := by rw [frame]
      refine ⟨RolesChanged.of_roles sound roles pair (by rw [frame]) (by rw [frame]), by rw [frame], fun k => ?_⟩
      rw [pair]
      exact told k
  · have cleared : { s with pair := { s.pair with askPending := false } }.RolesSound := sound
    simp only [override, if_true] at ht
    exact State.changeRoles_raised cleared s.pair.settled s.pair.failoverFade .standbySilent t ht

/-- R85: what a swap leaves. -/
theorem State.swap_changed {s : State} (sound : s.RolesSound) (fade : Nat) (cause : PairCause) :
    ∀ t, t = s.swap fade cause →
      RolesChanged s t { s.pair with active := s.pair.active.other, override := false, askPending := false } fade ∧
        t = { s with links := t.links, pair := t.pair, slots := t.slots, claims := t.claims } ∧
        Told s t (fun k => restoredNotices .pair (gainedBy s t k) ++ pairNotices t.pair cause fade k) :=
  State.changeRoles_raised sound _ _ _

theorem State.silence_console (s : State) {l : Link} (console : l.tier = 2) :
    s.silence l = (s.setLink l (s.link l).flush).consoleSilent l := by
  unfold State.silence
  dsimp only
  rw [if_pos console]

/-- R81: silence of the STANDBY console. -/
theorem State.silence_standby {s : State} (sound : s.RolesSound) {l : Link} (standby : l = s.pair.standbyLink) :
    RolesChanged s (s.silence l) s.pair.settled s.pair.failoverFade ∧
      s.silence l =
        { s with links := (s.silence l).links, pair := (s.silence l).pair, slots := (s.silence l).slots
                 claims := (s.silence l).claims } ∧
      Told (s.setLink l (s.link l).flush) (s.silence l) (standbySilentNotices s (s.silence l)) := by
  have roles : (s.setLink l (s.link l).flush).RolesSound := sound
  have other : ¬l = (s.setLink l (s.link l).flush).pair.activeLink := by
    rw [standby]; exact s.pair.standbyLink_ne_activeLink
  have tier : l.tier = 2 := by rw [standby, Pair.standbyLink]; cases s.pair.active <;> rfl
  rw [State.silence_console s tier, State.consoleSilent, if_neg other]
  obtain ⟨changed, frame, told⟩ := State.standbySilent_changed roles _ rfl
  exact ⟨changed, frame.trans rfl, told⟩

/-- Settles O35, by the role of the silent console and the state of its partner. -/
theorem consoleSilenceReachesThePair : Obligations.ConsoleSilenceReachesThePair := by
  intro s l running roles console live due
  have tier : l.tier = 2 := by rcases console with rfl | rfl <;> rfl
  have ne := s.pair.standbyLink_ne_activeLink
  refine ⟨s.silence l, by rw [State.execSilenceTimeout_eq running, if_pos (State.timedOut_iff.mpr ⟨live, due⟩)], ?_⟩
  rcases s.pair.console console with active | standby
  · have roles1 : (s.setLink l (s.link l).flush).RolesSound := roles
    have partner : (s.setLink l (s.link l).flush).link s.pair.standbyLink = s.link s.pair.standbyLink :=
      State.setLink_link_ne _ _ (active ▸ ne)
    have silence : s.silence l = if (s.link s.pair.standbyLink).state = .live then
        (s.setLink l (s.link l).flush).swap s.pair.failoverFade .failover else s.setLink l (s.link l).flush := by
      rw [State.silence_console s tier, State.consoleSilent, ← partner]
      exact if_pos active
    rw [silence]
    by_cases h : (s.link s.pair.standbyLink).state = .live
    · rw [if_pos h]
      obtain ⟨changed, frame, told⟩ := State.swap_changed roles1 s.pair.failoverFade .failover _ rfl
      obtain ⟨silenced, others⟩ := told.silenced
      exact ⟨silenced, fun k hk => (others k hk).1, frame.trans rfl, fun _ _ => ⟨changed, fun k hk => (others k hk).2⟩,
        fun _ no => absurd h no, fun e => absurd (e.symm.trans active) ne⟩
    · rw [if_neg h]
      have told : Told (s.setLink l (s.link l).flush) (s.setLink l (s.link l).flush) (fun _ => []) := fun _ => rfl
      obtain ⟨silenced, others⟩ := told.silenced
      exact ⟨silenced, fun k hk => (others k hk).1, rfl, fun _ yes => absurd yes h,
        fun _ _ => ⟨rfl, rfl, rfl, fun k hk => State.setLink_link_ne _ _ hk⟩, fun e => absurd (e.symm.trans active) ne⟩
  · obtain ⟨changed, frame, told⟩ := State.silence_standby roles standby
    obtain ⟨silenced, others⟩ := told.silenced
    exact ⟨silenced, fun k hk => (others k hk).1, frame, fun e => absurd (standby.symm.trans e) ne,
      fun e => absurd (standby.symm.trans e) ne, fun _ => ⟨changed, fun k hk => (others k hk).2⟩⟩

end Sys2Proof.Machine
end

section
/-! PROOF. The settings of a link and of the pair (R12, R87). -/

namespace Sys2Proof.Machine

/-- The record of a link with its settings stored, brought into their ranges (R12, R117). -/
def LinkRec.withSettings (r : LinkRec) (target : Link) (limit fade : Nat) : LinkRec :=
  { r with
    silenceLimit := max 100 (min 5000 limit)
    lossFade := if target = .cl2 ∨ target = .cl3 then min fade 600000 else r.lossFade }

theorem State.storeLinkSettings_eq (s : State) (target : Link) (limit fade : Nat) :
    s.storeLinkSettings target limit fade = s.setLink target ((s.link target).withSettings target limit fade) := by
  unfold State.storeLinkSettings LinkRec.withSettings
  cases target <;> rfl

theorem takenStatus_settings (limit fade : Nat) :
    takenStatus (decide (clampBetween 100 5000 limit ≠ limit) || outOfRange fade) =
      if limit < 100 ∨ 5000 < limit ∨ 600000 < fade then .clamped else .ok := by
  have clamped : clampBetween 100 5000 limit ≠ limit ↔ limit < 100 ∨ 5000 < limit := by
    unfold clampBetween; omega
  unfold takenStatus outOfRange Config.longestTime
  simp only [clamped, Bool.or_eq_true, decide_eq_true_eq, or_assoc]

theorem takenStatus_fade (fade : Nat) :
    takenStatus (outOfRange fade) = if 600000 < fade then .clamped else .ok := by
  unfold takenStatus outOfRange Config.longestTime
  simp only [decide_eq_true_eq]

/-- R12: what a SET_LINK does: the settings are stored, and a link whose limit has run is silenced. -/
theorem State.takeSetLink_eq (s : State) (l target : Link) (limit fade : Nat) (f : Frame) :
    s.takeSetLink l target limit fade f =
      (if target ≠ l ∧ (s.link target).state = .live ∧
          max 100 (min 5000 limit) ≤ elapsed (s.link target).lastGood s.now then
        (s.setLink target ((s.link target).withSettings target limit fade)).silence target
      else s.setLink target ((s.link target).withSettings target limit fade)).answer l f
        (if limit < 100 ∨ 5000 < limit ∨ 600000 < fade then .clamped else .ok) .none := by
  unfold State.takeSetLink
  rw [takenStatus_settings, State.storeLinkSettings_eq]
  dsimp only
  simp only [State.timedOut_iff, State.setLink_link_self]
  rfl

section Silencing

variable {s : State} {l target : Link} (limit fade : Nat) (f : Frame) (status : Status)

/-- R12, R15, R66, R72: a SET_LINK that silences a feed. -/
theorem State.silence_setFeed (feed : target = .cl2 ∨ target = .cl3) (p : s.PoolsSound) :
    ∀ t, t = ((s.setLink target ((s.link target).withSettings target limit fade)).silence target).answer l f status .none →
      ClaimsGone s t (fun c => decide (c.link = target)) (min fade 600000) ∧ FixturesKept s t ∧
        t = { s with links := t.links, slots := t.slots, claims := t.claims, expiryList := t.expiryList } ∧
        ∀ k, k ≠ target → Hears (s.link k) (t.link k) (restoredNotices .silence (gainedBy s t k)) := by
  rintro t rfl
  have tier : target.tier ≠ 2 := by rcases feed with rfl | rfl <;> decide
  obtain ⟨gone, fixtures, frame, told⟩ :=
    State.silence_feed (State.setLink_poolsSound p target ((s.link target).withSettings target limit fade)) tier
  have loss : ((s.link target).withSettings target limit fade).lossFade = min fade 600000 := if_pos feed
  rw [State.setLink_link_self, loss] at gone
  refine ⟨gone, fixtures, ?_, fun k hk => ?_⟩
  · generalize (s.setLink target ((s.link target).withSettings target limit fade)).silence target = u at frame
    exact congrArg (fun v : State => { v with links := (u.answer l f status .none).links }) frame
  · have hears := (told.silenced.2 k hk).2
    rw [State.setLink_link_ne _ _ hk] at hears
    exact State.answer_hears _ l k f status .none hears

/-- R12, R81: a SET_LINK that silences the other console, which is then the STANDBY one. -/
theorem State.silence_setConsole (other : target ≠ l) (active : l = s.pair.activeLink)
    (console : target = .cl0 ∨ target = .cl1) (roles : s.RolesSound) :
    ∀ t, t = ((s.setLink target ((s.link target).withSettings target limit fade)).silence target).answer l f status .none →
      RolesChanged s t s.pair.settled s.pair.failoverFade ∧
        t = { s with links := t.links, pair := t.pair, slots := t.slots, claims := t.claims } ∧
        ∀ k, k ≠ target → Hears (s.link k) (t.link k) (standbySilentNotices s t k) := by
  rintro t rfl
  have standby := (s.pair.console console).resolve_left fun e => other (e.trans active.symm)
  have roles1 : (s.setLink target ((s.link target).withSettings target limit fade)).RolesSound := roles
  obtain ⟨changed, frame, told⟩ := State.silence_standby roles1 standby
  refine ⟨changed, ?_, fun k hk => ?_⟩
  · generalize (s.setLink target ((s.link target).withSettings target limit fade)).silence target = u at frame
    exact congrArg (fun v : State => { v with links := (u.answer l f status .none).links }) frame
  · have hears := (told.silenced.2 k hk).2
    rw [State.setLink_link_ne _ _ hk] at hears
    exact State.answer_hears _ l k f status .none hears

end Silencing

/-- Settles O14: by whether the stored limit has run on another link, and then by the kind of that link. -/
theorem linkAndPairSettingsAreStored : Obligations.LinkAndPairSettingsAreStored := by
  refine ⟨fun s l target limit fade f hand active => ?_, fun s l f fade hand active => ?_⟩
  · have permitted : s.isActive l = true := by
      rw [← Bool.not_eq_false, State.isActive_eq_false]; exact fun no => no active
    have exec := exec_setLink hand
    rw [State.withPermission_of_true permitted, State.takeSetLink_eq] at exec
    refine ⟨_, exec, ?_⟩
    generalize (if limit < 100 ∨ 5000 < limit ∨ 600000 < fade then Status.clamped else .ok) = status
    by_cases due : target ≠ l ∧ (s.link target).state = .live ∧
        max 100 (min 5000 limit) ≤ elapsed (s.link target).lastGood s.now
    · simp only [if_pos due]
      obtain ⟨other, -, -⟩ := due
      obtain ⟨ns, told⟩ := State.silence_told (s.setLink target ((s.link target).withSettings target limit fade)) target
      obtain ⟨silenced, others⟩ := told.silenced
      rw [State.setLink_link_self] at silenced
      have kept : ∀ k, k ≠ target → _ := fun k hk => by
        have h := (others k hk).1
        rw [State.setLink_link_ne _ _ hk] at h
        exact State.answer_link_kept _ l k f status .none h
      refine ⟨State.answer_answered _ _ _ _ _ _ ?_, kept, ?_,
        fun feed pools => State.silence_setFeed (l := l) limit fade f status feed pools _ rfl,
        fun console roles => State.silence_setConsole limit fade f status other active console roles _ rfl⟩
      · rw [(others l other.symm).1, State.setLink_link_ne _ _ other.symm]
      · simp only [if_neg other]
        rw [State.answer_link, if_neg other]
        exact silenced
    · simp only [if_neg due]
      refine ⟨State.answer_answered _ _ _ _ _ _ ?_, fun k hk => ?_, rfl, ?_, fun k => ?_⟩
      · rw [State.setLink_link]
        split
        · rename_i e; rw [e]; rfl
        · rfl
      · refine State.answer_link_kept _ l k f status .none ?_
        rw [State.setLink_link_ne _ _ hk]
      · by_cases e : target = l
        · subst e; simp [State.answer_link, LinkRec.withSettings]
        · simp [State.answer_link, e, LinkRec.withSettings]
      · refine State.answer_hears _ l k f status .none ?_
        rw [State.setLink_link]
        split
        · rename_i e; rw [e]; exact ⟨rfl, rfl⟩
        · exact ⟨rfl, rfl⟩
  · have permitted : s.isActive l = true := by
      rw [← Bool.not_eq_false, State.isActive_eq_false]; exact fun no => no active
    refine ⟨_, exec_setPair hand, ?_⟩
    rw [State.withPermission_of_true permitted, takenStatus_fade]
    exact State.answer_answeredOnly _ _ _ _ _

end Sys2Proof.Machine
end

section
/-! PROOF. The arrival of a frame (R2, R3, R4, R11, R81). -/

namespace Sys2Proof.Machine

/-- R2: what an arrival does once the run has been checked. -/
theorem State.execFrameArrival_eq {s : State} {l : Link} (running : s.inReset = false)
    (empty : (s.link l).assembler = Assembler.empty) (chars : List RxChar) :
    exec (.frameArrival l chars) s =
      .next ((chars.foldl Assembler.take Assembler.empty).goodFrame.elim s (s.arrive l)) := by
  have same : s.setLink l { s.link l with assembler := Assembler.empty } = s := by
    rw [← empty]; exact State.setLink_link_back s l
  refine (congrArg Host.Outcome.next (State.whenRunning_of_running running _)).trans ?_
  dsimp only
  rw [same, empty]
  cases (chars.foldl Assembler.take Assembler.empty).goodFrame <;> rfl

/-! ### The requests of the link (R3, R4) -/

section Arrived

variable (r : LinkRec) (f : Frame)

theorem LinkRec.handOn_requestOverrun : r.handOn.requestOverrun = r.requestOverrun :=
  (congrArg LinkRec.requestOverrun (LinkRec.handOn_spec r).1).trans rfl

theorem LinkRec.arrived_frame :
    (r.enqueue f).handOn =
      { r with
        requests := (r.enqueue f).handOn.requests
        inHand := (r.enqueue f).handOn.inHand
        requestOverrun := (r.enqueue f).handOn.requestOverrun } := by
  have queued := (LinkRec.enqueue_spec r f).1
  rw [LinkRec.handOn_requestOverrun]
  generalize r.enqueue f = q at queued
  exact (LinkRec.handOn_spec q).1.trans
    (congrArg (fun v : LinkRec => { v with requests := q.handOn.requests, inHand := q.handOn.inHand }) queued)

theorem LinkRec.arrived_waiting :
    if r.requests.length < 4 then
      (r.enqueue f).handOn.waiting = r.waiting ++ [f] ∧ (r.enqueue f).handOn.requestOverrun = r.requestOverrun
    else (r.enqueue f).handOn.waiting = r.waiting ∧ (r.enqueue f).handOn.requestOverrun = true := by
  obtain ⟨frame, room, full⟩ := LinkRec.enqueue_spec r f
  have inHand : (r.enqueue f).inHand = r.inHand := by rw [frame]
  rw [LinkRec.handOn_waiting, LinkRec.handOn_requestOverrun]
  unfold LinkRec.waiting
  rw [inHand]
  split
  case isTrue h =>
    obtain ⟨requests, flag⟩ := room h
    exact ⟨by rw [requests, List.append_assoc], flag⟩
  case isFalse h =>
    obtain ⟨requests, flag⟩ := full (by omega)
    exact ⟨by rw [requests], flag⟩

/-- R4: a request is in hand whenever one waits and the answer buffer is empty. -/
theorem LinkRec.handOn_idle (h : r.handOn.answer = none) (k : r.handOn.inHand = none) : r.handOn.requests = [] := by
  obtain ⟨frame, free, busy⟩ := LinkRec.handOn_spec r
  have answer : r.answer = none := by rwa [frame] at h
  cases inHand : r.inHand with
  | some g =>
    rw [busy (fun both => by rw [inHand] at both; exact nomatch both.2), inHand] at k
    exact nomatch k
  | none =>
    obtain ⟨head, tail⟩ := free answer inHand
    rw [head, List.head?_eq_none_iff] at k
    rw [tail, k]; rfl

theorem LinkRec.arrived_inHand (h : r.answer.isSome = true ∨ r.inHand.isSome = true) :
    (r.enqueue f).handOn.inHand = r.inHand := by
  have frame := (LinkRec.enqueue_spec r f).1
  have busy := (LinkRec.handOn_spec (r.enqueue f)).2.2
  rw [busy, frame]
  rw [frame]
  rintro ⟨answer, inHand⟩
  rcases h with h | h
  · exact absurd answer (Option.isSome_iff_ne_none.mp h)
  · exact absurd inHand (Option.isSome_iff_ne_none.mp h)

end Arrived

/-! ### The link becomes LIVE (R11, R81) -/

/-- The state with a link LIVE and its silence timer restarted. -/
def State.heard (s : State) (l : Link) : State := s.setLink l { s.link l with state := .live, lastGood := s.now }

theorem State.becomeLive_eq (s : State) (l : Link) :
    s.becomeLive l =
      if l = s.pair.standbyLink ∧ (s.link l).state ≠ .live ∧ (s.link s.pair.activeLink).state ≠ .live then
        (s.heard l).swap s.pair.failoverFade .standbyLive
      else s.heard l := by
  by_cases standby : l = s.pair.standbyLink
  · have tier : l.tier = 2 := by rw [standby, Pair.standbyLink]; cases s.pair.active <;> rfl
    have active : (s.heard l).link s.pair.activeLink = s.link s.pair.activeLink :=
      State.setLink_link_ne _ _ (standby ▸ s.pair.standbyLink_ne_activeLink.symm)
    have console : (s.heard l).consoleLive l =
        if (s.link s.pair.activeLink).state ≠ .live then (s.heard l).swap s.pair.failoverFade .standbyLive
        else s.heard l := by
      rw [State.consoleLive, ← active]
      exact if_congr (and_iff_right standby) rfl rfl
    have live : s.becomeLive l = if (s.link l).state ≠ .live then (s.heard l).consoleLive l else s.heard l :=
      if_congr (and_iff_left tier) rfl rfl
    rw [live, console, ← ite_and]
    exact if_congr (and_iff_right standby).symm rfl rfl
  · have console : (s.heard l).consoleLive l = s.heard l := if_neg fun h => standby h.1
    rw [if_neg fun h => standby h.1]
    unfold State.becomeLive
    dsimp only
    exact (ite_congr rfl (fun _ => console) fun _ => rfl).trans (ite_self _)

/-- The time of the last good frame plays no part in what a link hears. -/
theorem Hears.of_lastGood {r r' : LinkRec} {x : Reading} {ns : List Notice} (h : Hears { r with lastGood := x } r' ns) :
    Hears r r' ns := by
  have fold : ∀ (ns : List Notice) (r : LinkRec),
      ns.foldl LinkRec.receive { r with lastGood := x } = { ns.foldl LinkRec.receive r with lastGood := x } := by
    intro ns
    induction ns with
    | nil => exact fun _ => rfl
    | cons n rest ih =>
      intro r
      have one : LinkRec.receive { r with lastGood := x } n = { r.receive n with lastGood := x } := by
        unfold LinkRec.receive
        dsimp only
        split
        · split <;> rfl
        · rfl
      rw [List.foldl_cons, List.foldl_cons, one, ih]
  unfold Hears at h ⊢
  rwa [fold] at h

/-! ### The arrival (R11, R81) -/

theorem State.heard_link_self (s : State) (l : Link) :
    (s.heard l).link l = { s.link l with state := .live, lastGood := s.now } := State.setLink_link_self ..

theorem State.heard_link_ne (s : State) {l k : Link} (h : k ≠ l) : (s.heard l).link k = s.link k :=
  State.setLink_link_ne _ _ h

/-- What an arrival does to its own link, whatever the link was told of a swap. -/
theorem State.arrive_link {s u : State} {l : Link} (f : Frame) (heard : LinksTold (s.heard l) u) :
    ∀ t, t = u.setLink l ((u.link l).enqueue f).handOn →
      t.link l =
        { s.link l with
          state := .live
          lastGood := s.now
          requests := (t.link l).requests
          inHand := (t.link l).inHand
          requestOverrun := (t.link l).requestOverrun
          notices := (t.link l).notices
          noticeOverflow := (t.link l).noticeOverflow } ∧
      (if (s.link l).requests.length < 4 then
        (t.link l).waiting = (s.link l).waiting ++ [f] ∧ (t.link l).requestOverrun = (s.link l).requestOverrun
      else (t.link l).waiting = (s.link l).waiting ∧ (t.link l).requestOverrun = true) ∧
      ((t.link l).answer = none → (t.link l).inHand = none → (t.link l).requests = []) ∧
      ((s.link l).answer.isSome = true ∨ (s.link l).inHand.isSome = true → (t.link l).inHand = (s.link l).inHand) := by
  rintro t rfl
  have told := heard.hear l
  rw [State.heard_link_self] at told
  rw [State.setLink_link_self]
  generalize u.link l = r at told
  have frame := r.arrived_frame f
  have waiting := r.arrived_waiting f
  have inHand := r.arrived_inHand f
  have idle := (r.enqueue f).handOn_idle
  generalize (r.enqueue f).handOn = q at frame waiting inHand idle
  rw [told] at frame waiting inHand
  refine ⟨?_, waiting, idle, inHand⟩
  rw [frame]

/-- The other links, and the notices of every link, are those of the state in which the link became LIVE. -/
theorem State.arrive_others (u : State) (l : Link) (f : Frame) :
    ∀ t, t = u.setLink l ((u.link l).enqueue f).handOn →
      (∀ k, k ≠ l → t.link k = u.link k) ∧ ∀ k r ns, Hears r (u.link k) ns → Hears r (t.link k) ns := by
  rintro t rfl
  have others : ∀ k, k ≠ l → (u.setLink l ((u.link l).enqueue f).handOn).link k = u.link k :=
    fun k hk => State.setLink_link_ne _ _ hk
  refine ⟨others, fun k r ns h => ?_⟩
  by_cases e : k = l
  · subst e
    rw [State.setLink_link_self, LinkRec.arrived_frame]
    exact h
  · rwa [others k e]

/-- A link LIVE with its silence timer restarted hears what the link as it stood LIVE would hear. -/
theorem State.heard_hears {s : State} {l k : Link} {r : LinkRec} {ns : List Notice}
    (h : Hears ((s.heard l).link k) r ns) : Hears (if k = l then { s.link l with state := .live } else s.link k) r ns := by
  by_cases e : k = l
  · subst e
    rw [State.heard_link_self] at h
    rw [if_pos rfl]
    exact Hears.of_lastGood h
  · rwa [if_neg e, ← State.heard_link_ne s e]

/-- Settles O8: by whether the arrival swaps the roles. -/
theorem framesArrive : Obligations.FramesArrive := by
  refine ⟨fun s l f running empty short => ?_, fun s l chars running empty bad => ?_⟩
  · have good := (controlFramesAreReadAsWritten (asCharacters (controlFrame f.tag f.kind f.payload)) f).mpr ⟨rfl, short⟩
    refine ⟨s.arrive l f, by rw [State.execFrameArrival_eq running empty, good]; rfl, ?_⟩
    have told : LinksTold (s.heard l) (s.becomeLive l) := s.becomeLive_told l
    have arrive : s.arrive l f = (s.becomeLive l).setLink l (((s.becomeLive l).link l).enqueue f).handOn := rfl
    obtain ⟨own, queue, idle, kept⟩ := State.arrive_link f told _ arrive
    obtain ⟨others, hears⟩ := State.arrive_others (s.becomeLive l) l f _ arrive
    refine ⟨own, queue, idle, kept, ?_⟩
    rw [State.becomeLive_eq] at arrive told others hears
    split
    case isTrue swaps =>
      rw [if_pos swaps] at arrive told others hears
      intro sound
      have sound' : (s.heard l).RolesSound := sound
      obtain ⟨changed, frame, notices⟩ := State.swap_changed sound' s.pair.failoverFade .standbyLive _ rfl
      generalize (s.heard l).swap s.pair.failoverFade .standbyLive = u at arrive told others hears changed frame notices
      rw [arrive] at others hears ⊢
      refine ⟨changed, ?_, fun k hk => ?_, fun k => State.heard_hears (hears k _ _ (notices.hears k))⟩
      · exact congrArg (fun v : State => { v with links := (u.setLink l ((u.link l).enqueue f).handOn).links }) frame
      · have := told.hear k
        rw [← others k hk, State.heard_link_ne s hk] at this
        exact this
    case isFalse stays =>
      rw [if_neg stays] at arrive others hears
      refine ⟨by rw [arrive]; rfl, fun k hk => (others k hk).trans (State.heard_link_ne s hk), fun k => hears k _ _ ?_⟩
      by_cases e : k = l
      · subst e; rw [State.heard_link_self]; exact ⟨rfl, rfl⟩
      · rw [State.heard_link_ne s e]; exact ⟨rfl, rfl⟩
  · have none : (chars.foldl Assembler.take Assembler.empty).goodFrame = none := by
      refine Option.eq_none_iff_forall_ne_some.mpr fun f h => ?_
      obtain ⟨run, short⟩ := (controlFramesAreReadAsWritten chars f).mp h
      exact bad f short run
    rw [State.execFrameArrival_eq running empty, none]
    rfl

end Sys2Proof.Machine
end

section
/-! PROOF. Work on claims (R55 to R103): what it leaves of the fixtures, the lines, the pair record and the safety state,
and the roles that it keeps. -/

namespace Sys2Proof.Machine

/-! ### Work on claims -/

/-- The fixtures, the lines, the pair record and the safety state are as they were, and every claim has its role still. -/
structure ClaimWork (s t : State) : Prop where
  lines : t.lines = s.lines
  fixtures : ∀ n, (t.slot n).fixture = (s.slot n).fixture
  pair : t.pair = s.pair
  safety : t.safety = s.safety
  asserted : t.safeAsserted = s.safeAsserted
  roles : s.RolesSound → t.RolesSound

theorem ClaimWork.refl (s : State) : ClaimWork s s := ⟨rfl, fun _ => rfl, rfl, rfl, rfl, id⟩

theorem ClaimWork.trans {s t u : State} (h : ClaimWork s t) (k : ClaimWork t u) : ClaimWork s u where
  lines := k.lines.trans h.lines
  fixtures n := (k.fixtures n).trans (h.fixtures n)
  pair := k.pair.trans h.pair
  safety := k.safety.trans h.safety
  asserted := k.asserted.trans h.asserted
  roles := k.roles ∘ h.roles

theorem ClaimWork.ite {s t u : State} {c : Prop} [Decidable c] (ht : ClaimWork s t) (hu : ClaimWork s u) :
    ClaimWork s (if c then t else u) := by
  split <;> assumption

theorem ClaimWork.foldl {α : Type} {f : State → α → State} (h : ∀ s a, ClaimWork s (f s a)) (l : List α) (s : State) :
    ClaimWork s (l.foldl f s) := by
  induction l generalizing s with
  | nil => exact .refl s
  | cons a rest ih => exact (h s a).trans (ih (f s a))

/-- A fold that gathers a list beside the state is work on claims when each of its steps is. -/
theorem ClaimWork.foldl_fst {α β : Type} {f : State × List β → α → State × List β}
    (h : ∀ acc a, ClaimWork acc.1 (f acc a).1) (l : List α) (acc : State × List β) :
    ClaimWork acc.1 (l.foldl f acc).1 := by
  induction l generalizing acc with
  | nil => exact .refl _
  | cons a rest ih => exact (h acc a).trans (ih (f acc a))

/-! ### The shared updates -/

section
variable (s : State)

theorem State.setLink_work (l : Link) (r : LinkRec) : ClaimWork s (s.setLink l r) :=
  ⟨rfl, fun _ => rfl, rfl, rfl, rfl, id⟩

theorem State.setSlot_work (n : SlotNo) {x : Slot} (h : x.fixture = (s.slot n).fixture) : ClaimWork s (s.setSlot n x) := by
  refine ⟨rfl, fun m => ?_, rfl, rfl, rfl, id⟩
  rw [State.setSlot_slot]
  split
  · rename_i e; rw [h, e]
  · rfl

theorem State.setFade_work (n : SlotNo) (g : Group) (x : Option Crossfade) : ClaimWork s (s.setFade n g x) :=
  s.setSlot_work n rfl

theorem State.setParked_work (n : SlotNo) (g : Group) (v : Value) : ClaimWork s (s.setParked n g v) := s.setSlot_work n rfl

theorem State.setChanged_work (n : SlotNo) : ClaimWork s (s.setChanged n) := s.setSlot_work n rfl

theorem State.setUrgent_work (n : SlotNo) : ClaimWork s (s.setUrgent n) := s.setSlot_work n rfl

theorem State.evaluated_work (n : SlotNo) (g : Group) : ClaimWork s (s.evaluated n g) := s.setFade_work n g _

/-- Every claim stays, or has come with the role that its link has. -/
theorem ClaimWork.of_claims {t : State} (lines : t.lines = s.lines) (slots : t.slots = s.slots) (pair : t.pair = s.pair)
    (safety : t.safety = s.safety) (asserted : t.safeAsserted = s.safeAsserted)
    (h : ∀ d ∈ t.claims, d.role = s.pair.roleFor d.link ∨ ∃ c ∈ s.claims, c.role = d.role ∧ c.link = d.link) :
    ClaimWork s t := by
  refine ⟨lines, fun n => by unfold State.slot; rw [slots], pair, safety, asserted, fun sound d hd => ?_⟩
  rw [pair]
  rcases h d hd with role | ⟨c, hc, role, link⟩
  · exact role
  · rw [← role, ← link]; exact sound c hc

/-- A change of one claim that leaves its role and its link, with the clock's and the lists' other fields free. -/
theorem ClaimWork.of_mapClaim {t : State} {k : Nat} {change : Claim → Claim}
    (claims : t.claims = (s.mapClaim k change).claims) (lines : t.lines = s.lines) (slots : t.slots = s.slots)
    (pair : t.pair = s.pair) (safety : t.safety = s.safety) (asserted : t.safeAsserted = s.safeAsserted)
    (role : ∀ c, (change c).role = c.role := by intro; rfl)
    (link : ∀ c, (change c).link = c.link := by intro; rfl) : ClaimWork s t := by
  refine .of_claims s lines slots pair safety asserted fun d hd => .inr ?_
  rw [claims] at hd
  obtain ⟨c, hc, rfl⟩ := List.mem_map.mp hd
  refine ⟨c, hc, ?_⟩
  split
  · exact ⟨(role c).symm, (link c).symm⟩
  · exact ⟨rfl, rfl⟩

theorem State.mapClaim_work (k : Nat) {change : Claim → Claim} (role : ∀ c, (change c).role = c.role := by intro; rfl)
    (link : ∀ c, (change c).link = c.link := by intro; rfl) : ClaimWork s (s.mapClaim k change) :=
  .of_mapClaim s rfl rfl rfl rfl rfl rfl role link

theorem mem_insertByNumber {c d : Claim} {l : List Claim} : d ∈ insertByNumber c l ↔ d = c ∨ d ∈ l := by
  induction l with
  | nil => simp [insertByNumber]
  | cons e rest ih =>
    unfold insertByNumber
    split
    · simp only [List.mem_cons, ih]; tauto
    · simp

theorem State.createClaim_work (l : Link) (n : SlotNo) (g : Group) (v : Value) :
    ClaimWork s (s.createClaim l n g v) := by
  refine .of_claims s rfl rfl rfl rfl rfl fun d hd => ?_
  rcases mem_insertByNumber.mp hd with rfl | hd
  · exact .inl rfl
  · exact .inr ⟨d, hd, rfl, rfl⟩

theorem State.stampTaken_work (k : Nat) : ClaimWork s (s.stampTaken k) :=
  .of_mapClaim s (change := fun c => { c with taken := s.now, takenOrder := s.stampCount }) rfl rfl rfl rfl rfl rfl

theorem State.returnSteps_work (k : Nat) : ClaimWork s (s.returnSteps k) :=
  .of_mapClaim s (change := fun c => { c with running := none, queue := [] }) rfl rfl rfl rfl rfl rfl

theorem State.startStep_work (k : Nat) (n : SlotNo) (x : Step) (v : Value) (t : Reading) (d : Bool) :
    ClaimWork s (s.startStep k n x v t d) := by
  have started := (s.mapClaim_work k (change := fun c =>
    { c with
      running := some
        { step := x, startValue := v, startTime := t, adjusted := x.curve.adjust d x.tie
          expiry := t + BitVec.ofNat 32 (x.duration + x.dwell) } })).trans (State.setChanged_work _ n)
  exact ⟨started.lines, started.fixtures, started.pair, started.safety, started.asserted, started.roles⟩

theorem State.dropClaim_work (k : Nat) : ClaimWork s (s.dropClaim k) :=
  .of_claims s rfl rfl rfl rfl rfl fun d hd => .inr ⟨d, (List.mem_filter.mp hd).1, rfl, rfl⟩

/-! ### Notices -/

theorem State.raiseTo_work (l : Link) (n : Notice) : ClaimWork s (s.raiseTo l n) := s.setLink_work l _

theorem State.raiseEach_work (ls : List Link) (n : Notice) : ClaimWork s (s.raiseEach ls n) :=
  .foldl (fun s l => s.raiseTo_work l n) ls s

theorem State.raiseAll_work (n : Notice) : ClaimWork s (s.raiseAll n) := s.raiseEach_work allLinks n

theorem State.raiseDisplaced_work (l : Link) (g : Group) (lost : List (Link × SlotNo)) :
    ClaimWork s (s.raiseDisplaced l g lost) :=
  .foldl (fun s k => .ite (.refl s) (s.raiseTo_work k _)) allLinks s

theorem State.raiseRestored_work (cause : RestoreCause) (gains : List Gain) :
    ClaimWork s (s.raiseRestored cause gains) :=
  .foldl (fun s k => .ite (.refl s) (s.raiseTo_work k _)) allLinks s

/-! ### SEIZE and RELEASE (R61, R62, R65, R66) -/

theorem State.settleOwner_work (n : SlotNo) (g : Group) (k : Nat) (before : Option Claim) (seize : Bool) :
    ClaimWork s (s.settleOwner n g k before seize).1 := by
  unfold State.settleOwner
  split
  · split
    · exact .ite (s.setFade_work n g none) (.refl s)
    · exact (s.setFade_work n g none).trans (State.setChanged_work _ n)
  · exact .refl s

theorem State.seizeSlot_work (l : Link) (g : Group) (n : SlotNo) : ClaimWork s (s.seizeSlot l g n).1 := by
  have settled : ∀ u v : State, ClaimWork u v → ∀ o : Option Claim, ClaimWork u
      (match o with | none => (v, []) | some c => v.settleOwner n g c.number (s.owner n g) true).1 := by
    rintro u v h (_ | c)
    · exact h
    · exact h.trans (v.settleOwner_work n g c.number _ true)
  unfold State.seizeSlot
  refine (s.evaluated_work n g).trans (settled _ _ ?_ _)
  split
  · exact State.createClaim_work _ l n g _
  · rename_i c _
    exact ((State.returnSteps_work _ c.number).trans
      (State.mapClaim_work _ c.number)).trans (State.stampTaken_work _ c.number)

theorem State.seizeSlots_work (l : Link) (g : Group) (slots : List SlotNo) :
    ClaimWork s (s.seizeSlots l g slots).1 := by
  unfold State.seizeSlots
  exact .foldl_fst (fun acc n => by exact acc.1.seizeSlot_work l g n) slots (s, [])

theorem State.removeClaim_work (c : Claim) (fade : Nat) : ClaimWork s (s.removeClaim c fade).1 := by
  have dropped := s.dropClaim_work c.number
  unfold State.removeClaim
  dsimp only
  split
  · have parked := (dropped.trans (State.setParked_work _ c.slot c.group (s.present c.slot c.group))).trans
      (State.setFade_work _ c.slot c.group none)
    exact .ite (parked.trans (State.setChanged_work _ c.slot)) parked
  · split
    · exact (dropped.trans (State.setFade_work _ c.slot c.group _)).trans (State.setChanged_work _ c.slot)
    · exact dropped

theorem State.releaseClaims_work (claims : List Claim) (fade : Nat) (cause : RestoreCause) :
    ClaimWork s (s.releaseClaims claims fade cause) := by
  unfold State.releaseClaims State.removeClaims
  exact ClaimWork.trans (.foldl_fst (fun acc c => by exact acc.1.removeClaim_work c fade) claims (s, []))
    (State.raiseRestored_work _ cause _)

/-! ### Steps (R91 to R103) -/

theorem State.checkLowMark_work (k : Nat) : ClaimWork s (s.checkLowMark k) := by
  unfold State.checkLowMark
  split
  · exact .refl s
  · exact .ite ((s.mapClaim_work k).trans (State.raiseTo_work _ _ _)) (.refl s)

theorem State.retire_work (c : Claim) (r : RunningStep) : ClaimWork s (s.retire c r) := by
  have unlisted : ClaimWork s { s with expiryList := s.expiryList.filter (fun e => decide (e.claim ≠ c.number)) } :=
    ⟨rfl, fun _ => rfl, rfl, rfl, rfl, id⟩
  cases h : c.queueAtRetirement r.step with
  | nil =>
    rw [State.retire_last h]
    exact unlisted.trans (State.mapClaim_work _ _)
  | cons x rest =>
    rw [State.retire_next h]
    exact ((unlisted.trans (State.mapClaim_work _ _)).trans
      (State.startStep_work _ _ _ _ _ _ _)).trans (State.checkLowMark_work _ _)

theorem State.retireInstant_work (fuel : Nat) : ClaimWork s (State.retireInstant fuel s) := by
  induction fuel generalizing s with
  | zero => exact .refl s
  | succ fuel ih =>
    unfold State.retireInstant
    split
    · exact .refl s
    · exact (s.retire_work _ _).trans (ih _)

theorem State.settleSteps_work : ClaimWork s s.settleSteps := by
  unfold State.settleSteps; exact s.retireInstant_work _

theorem State.retireDue_work : ClaimWork s s.retireDue := by
  unfold State.retireDue
  split
  · exact .refl s
  · refine .ite ?_ (.refl s)
    split
    · exact .refl s
    · split
      · exact .refl s
      · exact (s.retire_work _ _).trans (State.settleSteps_work _)

theorem State.arm_work (k : Nat) : ClaimWork s (s.arm k) := s.mapClaim_work k

theorem State.startSteps_work (c : Claim) (before : Option Claim) (v : Value) (x : Step) (rest : List Step) :
    ClaimWork s (s.startSteps c before v x rest).1 :=
  ((((s.stampTaken_work c.number).trans (State.settleOwner_work _ c.slot c.group c.number before false)).trans
    (State.returnSteps_work _ c.number)).trans (State.mapClaim_work _ c.number)).trans
      (State.startStep_work _ _ _ _ _ _ _)

/-- R94: the state with the link's claim on the group found or created. -/
def State.stepFound (q : StepRequest) (n : SlotNo) : State :=
  match s.claimOf q.link n q.group with
  | none => (s.evaluated n q.group).createClaim q.link n q.group (s.present n q.group)
  | some _ => s

/-- R94: what one slot's steps make of the claim found or created. -/
def State.stepClaim (q : StepRequest) (before : Option Claim) (value : Value) (c : Claim) (steps : List Step) : State :=
  match steps with
  | [] => s.mapClaim c.number q.setFields
  | x :: rest =>
    if q.option = StepOption.replace ∨ c.running = none then
      ((s.mapClaim c.number q.setFields).startSteps (q.setFields c) before value x rest).1
    else (s.mapClaim c.number q.setFields).mapClaim c.number (fun c => { c with queue := c.queue ++ (x :: rest) })

theorem State.stepSlot_eq (q : StepRequest) (n : SlotNo) (steps : List Step) :
    ((s.stepFound q n).claimOf q.link n q.group = none → (s.stepSlot q n steps).1 = s.stepFound q n) ∧
      ∀ c, (s.stepFound q n).claimOf q.link n q.group = some c → (s.stepSlot q n steps).1 =
        ((s.stepFound q n).stepClaim q (s.owner n q.group) (s.present n q.group) c steps).arm c.number := by
  have unfolded : s.stepSlot q n steps = (match (s.stepFound q n).claimOf q.link n q.group with
      | none => (s.stepFound q n, [])
      | some c =>
        let done :=
          match steps with
          | [] => ((s.stepFound q n).mapClaim c.number q.setFields, [])
          | x :: rest =>
            if q.option = StepOption.replace ∨ c.running = none then
              ((s.stepFound q n).mapClaim c.number q.setFields).startSteps (q.setFields c) (s.owner n q.group)
                (s.present n q.group) x rest
            else (((s.stepFound q n).mapClaim c.number q.setFields).mapClaim c.number
              (fun c => { c with queue := c.queue ++ (x :: rest) }), [])
        (done.1.arm c.number, done.2)) := by cases steps <;> rfl
  refine ⟨fun h => by rw [unfolded, h], fun c h => ?_⟩
  rw [unfolded, h]
  cases steps with
  | nil => rfl
  | cons x rest => dsimp only [State.stepClaim]; split <;> rfl

theorem State.stepFound_work (q : StepRequest) (n : SlotNo) : ClaimWork s (s.stepFound q n) := by
  unfold State.stepFound
  split
  · exact (s.evaluated_work n q.group).trans (State.createClaim_work _ _ _ _ _)
  · exact .refl s

theorem State.stepClaim_work (q : StepRequest) (before : Option Claim) (value : Value) (c : Claim) (steps : List Step) :
    ClaimWork s (s.stepClaim q before value c steps) := by
  have set := s.mapClaim_work c.number (change := q.setFields)
  unfold State.stepClaim
  split
  · exact set
  · exact .ite (set.trans (State.startSteps_work _ _ _ _ _ _)) (set.trans (State.mapClaim_work _ c.number))

theorem State.stepSlot_work (q : StepRequest) (n : SlotNo) (steps : List Step) :
    ClaimWork s (s.stepSlot q n steps).1 := by
  obtain ⟨none, some⟩ := s.stepSlot_eq q n steps
  cases h : (s.stepFound q n).claimOf q.link n q.group with
  | none => rw [none h]; exact s.stepFound_work q n
  | some c =>
    rw [some c h]
    exact ((s.stepFound_work q n).trans (State.stepClaim_work _ _ _ _ _ _)).trans (State.arm_work _ c.number)

theorem State.stepSlots_work (q : StepRequest) (steps : List StepFields) (slots : List SlotNo) (records : List Nat) :
    ClaimWork s (State.stepSlots q steps slots records s).1 := by
  induction slots generalizing records s with
  | nil => exact .refl s
  | cons n rest ih => exact (s.stepSlot_work q n _).trans (ih _ _)

theorem State.takeStep_work (q : StepRequest) (slots : List SlotNo) (steps : List StepFields) :
    ClaimWork s (s.takeStep q slots steps) :=
  ((s.stepSlots_work q steps slots _).trans (State.raiseDisplaced_work _ _ _ _)).trans (State.settleSteps_work _)

theorem State.haltClaim_work (c : Claim) : ClaimWork s (s.haltClaim c) := by
  unfold State.haltClaim
  split
  · exact .refl s
  · exact (s.returnSteps_work c.number).trans (State.startStep_work _ _ _ _ _ _ _)

theorem State.setModeOf_work (mode : Mode) (low : Nat) (c : Claim) : ClaimWork s (s.setModeOf mode low c) :=
  (s.mapClaim_work c.number).trans (State.arm_work _ c.number)

/-! ### The clean slate (R75), and evaluations (R69) -/

theorem State.parkSlot_work (n : SlotNo) : ClaimWork s (s.parkSlot n) := s.setSlot_work n rfl

theorem State.clearRig_work : ClaimWork s s.clearRig := by
  have emptied : ∀ u : State, ClaimWork s u → ClaimWork s { u with claims := [], expiryList := [] } := fun u h =>
    ⟨h.lines, h.fixtures, h.pair, h.safety, h.asserted, fun _ _ hd => absurd hd List.not_mem_nil⟩
  exact emptied _ (.foldl State.parkSlot_work allSlots s)

end

end Sys2Proof.Machine
end

section
/-! PROOF. Values in range (R24, R55, R67, R90, R112, R114, R117): interpolations, the values of steps and records, and
present values. -/

namespace Sys2Proof.Machine

/-! ### Interpolation (R110 to R113) -/

/-- R112: a value on the way from one value to another lies within the larger of the two. -/
theorem interpolate_le {start target g m : Nat} (hs : start ≤ m) (ht : target ≤ m) (hg : g ≤ 65536) :
    interpolate start target g ≤ m := by
  have value := interpolate_eq start target g hg
  have hg' : (g : Int) ≤ 65536 := by exact_mod_cast hg
  suffices h : ((interpolate start target g : Nat) : Int) ≤ m by exact_mod_cast h
  rw [value]
  rcases Nat.le_total start target with up | down
  · have share : (((target : Int) - start) * g + 32768) / 65536 ≤ (target : Int) - start := by
      have : ((target : Int) - start) * g ≤ ((target : Int) - start) * 65536 :=
        mul_le_mul_of_nonneg_left hg' (by omega)
      omega
    omega
  · have share : (((target : Int) - start) * g + 32768) / 65536 ≤ 0 := by
      have : ((target : Int) - start) * g ≤ 0 := mul_nonpos_of_nonpos_of_nonneg (by omega) (by omega)
      omega
    omega

/-- R113: so does every component, and there are as many as the group has. -/
theorem interpolateAll_fits {grp : Group} {start target : Value} {g : Nat} (hs : Value.Fits grp start)
    (ht : Value.Fits grp target) (hg : g ≤ 65536) : Value.Fits grp (interpolateAll start target g) := by
  obtain ⟨ls, bs⟩ := hs
  obtain ⟨lt, bt⟩ := ht
  refine ⟨by rw [interpolateAll_length, ls, lt, Nat.min_self], fun x hx => ?_⟩
  unfold interpolateAll at hx
  rw [← List.map_uncurry_zip_eq_zipWith] at hx
  obtain ⟨⟨a, b⟩, hab, rfl⟩ := List.mem_map.mp hx
  exact interpolate_le (bs a (List.of_mem_zip hab).1) (bt b (List.of_mem_zip hab).2) hg

/-- R111: no shaped fraction passes the end of the move. -/
theorem shape_le {c : Curve} {f : Nat} (h : f ≤ 65536) : shape c f ≤ 65536 := by
  cases c with
  | linear | snap | snapEnd => exact h
  | easeIn => exact Nat.div_le_of_le_mul (Nat.mul_le_mul h h)
  | easeOut => exact Nat.sub_le _ _
  | easeInOut =>
    refine Nat.div_le_of_le_mul ?_
    obtain ⟨d, hd⟩ := Nat.exists_eq_add_of_le h
    have width : 196608 - 2 * f = f + 3 * d := by omega
    rw [width]
    have : f * f * (f + 3 * d) + d * d * (3 * f + d) = (f + d) * (f + d) * (f + d) := by ring
    rw [← hd] at this
    omega

/-! ### Steps, records and claims -/

/-- R90: a step's target fits its group, and its times are at most 600,000. -/
def Step.Fits (g : Group) (x : Step) : Prop := Value.Fits g x.target ∧ x.duration ≤ 600000 ∧ x.dwell ≤ 600000

/-- R67: a record's from-value fits its group, and its duration is at most 600,000. -/
def Crossfade.Fits (g : Group) (x : Crossfade) : Prop := Value.Fits g x.fromValue ∧ x.duration ≤ 600000

/-- R55, R90: what a claim holds fits its group. -/
def Claim.Fits (c : Claim) : Prop :=
  Value.Fits c.group c.rest ∧ (∀ r, c.running = some r → r.Fits c.group) ∧ ∀ x ∈ c.queue, x.Fits c.group

/-- R91: a step that starts from a value that fits runs as one that fits. -/
theorem Step.Fits.running {g : Group} {x : Step} {v : Value} (h : x.Fits g) (hv : Value.Fits g v) {r : RunningStep}
    (step : r.step = x) (start : r.startValue = v) : r.Fits g := by
  obtain ⟨target, duration, dwell⟩ := h
  subst step start
  exact ⟨target, hv, duration, dwell⟩

theorem RunningStep.Fits.step {g : Group} {r : RunningStep} (h : r.Fits g) : r.step.Fits g := by
  obtain ⟨target, -, duration, dwell⟩ := h
  exact ⟨target, duration, dwell⟩

/-- R108, R109: the value of a running step fits at every reading. -/
theorem RunningStep.value_fits {g : Group} {r : RunningStep} (h : r.Fits g) (t : Reading) : Value.Fits g (r.value t) := by
  obtain ⟨target, start, -, -⟩ := h
  unfold RunningStep.value
  split
  · exact target
  · rename_i running
    have short : fraction (elapsed r.startTime t) r.step.duration ≤ 65536 :=
      (fraction_le (by omega)).trans (by omega)
    split
    · exact target
    · exact start
    · exact interpolateAll_fits start target (shape_le short)

theorem Claim.ownValue_fits {c : Claim} (h : c.Fits) (t : Reading) : Value.Fits c.group (c.ownValue t) := by
  obtain ⟨rest, running, -⟩ := h
  unfold Claim.ownValue
  split
  · exact rest
  · exact RunningStep.value_fits (running _ ‹_›) t

/-- R114: so does the value of a record that runs, toward a value that fits. -/
theorem Crossfade.value_fits {g : Group} {x : Crossfade} {v : Value} {t : Reading} (h : x.Fits g) (hv : Value.Fits g v)
    (runs : x.spent t = false) : Value.Fits g (x.value v t) := by
  have short : x.start.age t < x.duration := by simpa [Crossfade.spent] using runs
  exact interpolateAll_fits h.1 hv ((fraction_le short).trans (by omega))

/-! ### Present values (R115) -/

/-- R114: the record that runs is the record of the group, not spent. -/
theorem State.runningFade_eq_some {s : State} {n : SlotNo} {g : Group} {x : Crossfade} :
    s.runningFade n g = some x ↔ (s.slot n).fades.get g = some x ∧ x.spent s.now = false := by
  unfold State.runningFade State.fade
  cases (s.slot n).fades.get g with
  | none => simp
  | some y =>
    cases hy : y.spent s.now with
    | false => simp only [hy, Bool.false_eq_true, if_false]; exact ⟨fun e => ⟨e, by cases e; exact hy⟩, fun h => h.1⟩
    | true =>
      simp only [hy, if_true]
      exact ⟨fun e => (nomatch e), fun ⟨e, h⟩ => by cases e; rw [hy] at h; cases h⟩

theorem State.ValuesSound.beneath_fits {s : State} (h : s.ValuesSound) (n : SlotNo) (g : Group) :
    Value.Fits g (s.beneath n g) := by
  unfold State.beneath
  split
  · rename_i c owner
    obtain ⟨mem, -, rfl, -⟩ := State.owner_mem owner
    exact Claim.ownValue_fits (h.claim_fits c mem) s.now
  · exact h.parked_fits n g

/-- R115: while every value held is in range, so is every present value. -/
theorem State.ValuesSound.present_fits {s : State} (h : s.ValuesSound) (n : SlotNo) (g : Group) :
    Value.Fits g (s.present n g) := by
  unfold State.present
  split
  · rename_i x running
    obtain ⟨record, runs⟩ := State.runningFade_eq_some.mp running
    exact Crossfade.value_fits (h.fade_fits n g x record) (h.beneath_fits n g) runs
  · exact h.beneath_fits n g

end Sys2Proof.Machine
end

section
/-! PROOF. Every operation on claims keeps values in range, in a pool whose claims are numbered apart (R24, R55, R67, R90,
R117). -/

namespace Sys2Proof.Machine

/-! ### Values in a pool numbered apart -/

/-- R56: no two claims have one number. -/
def State.NumbersApart (s : State) : Prop := (s.claims.map (·.number)).Nodup

/-- Every value is in range, and no two claims have one number. -/
structure State.ValuesApart (s : State) : Prop where
  apart : s.NumbersApart
  values : s.ValuesSound

section
variable {s : State}

theorem State.ValuesApart.claim_fits (h : s.ValuesApart) {c : Claim} (mem : c ∈ s.claims) : c.Fits :=
  h.values.claim_fits c mem

theorem State.ValuesApart.passiveRecord_fits (h : s.ValuesApart) (n : SlotNo) (g : Group) {fade : Nat}
    (hf : fade ≤ 600000) : (s.passiveRecord n g fade).Fits g := ⟨h.values.present_fits n g, hf⟩

/-- A change of the claims alone, and of what no value is read from. -/
theorem State.ValuesApart.of_claims (h : s.ValuesApart) {t : State} (slots : t.slots = s.slots)
    (links : t.links = s.links) (pair : t.pair = s.pair) (apart : t.NumbersApart) (fits : ∀ c ∈ t.claims, c.Fits) :
    t.ValuesApart where
  apart := apart
  values :=
    { parked_fits := fun n g => by unfold State.slot; rw [slots]; exact h.values.parked_fits n g
      fade_fits := fun n g => by unfold State.slot; rw [slots]; exact h.values.fade_fits n g
      claim_fits := fits
      failover_fits := pair ▸ h.values.failover_fits
      loss_fits := fun l => by unfold State.link; rw [links]; exact h.values.loss_fits l }

/-- A change of the slots alone, and of what no value is read from. -/
theorem State.ValuesApart.of_slots (h : s.ValuesApart) {t : State} (claims : t.claims = s.claims)
    (links : t.links = s.links) (pair : t.pair = s.pair)
    (fits : ∀ n g, Value.Fits g ((t.slot n).parked.get g) ∧ ∀ x, (t.slot n).fades.get g = some x → x.Fits g) :
    t.ValuesApart where
  apart := by unfold State.NumbersApart; rw [claims]; exact h.apart
  values :=
    { parked_fits := fun n g => (fits n g).1
      fade_fits := fun n g => (fits n g).2
      claim_fits := fun c hc => h.values.claim_fits c (claims ▸ hc)
      failover_fits := pair ▸ h.values.failover_fits
      loss_fits := fun l => by unfold State.link; rw [links]; exact h.values.loss_fits l }

/-- A change of the links that brings no loss fade out of range. -/
theorem State.ValuesApart.of_links (h : s.ValuesApart) {t : State} (slots : t.slots = s.slots)
    (claims : t.claims = s.claims) (pair : t.pair = s.pair) (fits : ∀ l, (t.link l).lossFade ≤ 600000) :
    t.ValuesApart where
  apart := by unfold State.NumbersApart; rw [claims]; exact h.apart
  values :=
    { parked_fits := fun n g => by unfold State.slot; rw [slots]; exact h.values.parked_fits n g
      fade_fits := fun n g => by unfold State.slot; rw [slots]; exact h.values.fade_fits n g
      claim_fits := fun c hc => h.values.claim_fits c (claims ▸ hc)
      failover_fits := pair ▸ h.values.failover_fits
      loss_fits := fits }

/-- A claim at rest fits its group when its rest value does. -/
theorem Claim.Fits.of_rest {c : Claim} (rest : Value.Fits c.group c.rest) (running : c.running = none)
    (queue : c.queue = []) : c.Fits := by
  refine ⟨rest, fun r hr => ?_, fun x hx => ?_⟩
  · rw [running] at hr; cases hr
  · rw [queue] at hx; cases hx

/-! ### The shared updates -/

theorem State.ValuesApart.setLink (h : s.ValuesApart) (l : Link) {r : LinkRec} (fits : r.lossFade ≤ 600000) :
    (s.setLink l r).ValuesApart :=
  h.of_links rfl rfl rfl fun k => by
    rw [State.setLink_link]
    split
    · exact fits
    · exact h.values.loss_fits k

theorem State.ValuesApart.told {t : State} (h : s.ValuesApart) (told : LinksTold s t) (slots : t.slots = s.slots)
    (claims : t.claims = s.claims) (pair : t.pair = s.pair) : t.ValuesApart :=
  h.of_links slots claims pair fun k => by rw [told.hear k]; exact h.values.loss_fits k

theorem State.ValuesApart.setSlot (h : s.ValuesApart) (n : SlotNo) {x : Slot}
    (parked : ∀ g, Value.Fits g (x.parked.get g)) (fades : ∀ g y, x.fades.get g = some y → y.Fits g) :
    (s.setSlot n x).ValuesApart :=
  h.of_slots rfl rfl rfl fun m g => by
    rw [State.setSlot_slot]
    split
    · exact ⟨parked g, fades g⟩
    · exact ⟨h.values.parked_fits m g, h.values.fade_fits m g⟩

theorem State.ValuesApart.setFade (h : s.ValuesApart) (n : SlotNo) (g : Group) {x : Option Crossfade}
    (fits : ∀ y, x = some y → y.Fits g) : (s.setFade n g x).ValuesApart := by
  refine h.setSlot n (h.values.parked_fits n) fun k y hy => ?_
  rw [PerGroup.set_get] at hy
  split at hy
  · rename_i e; subst e; exact fits y hy
  · exact h.values.fade_fits n k y hy

theorem State.ValuesApart.setFade_none (h : s.ValuesApart) (n : SlotNo) (g : Group) : (s.setFade n g none).ValuesApart :=
  h.setFade n g fun _ e => nomatch e

theorem State.ValuesApart.setFade_some (h : s.ValuesApart) (n : SlotNo) (g : Group) {x : Crossfade} (fits : x.Fits g) :
    (s.setFade n g (some x)).ValuesApart :=
  h.setFade n g fun _ e => by cases e; exact fits

theorem State.ValuesApart.setChanged (h : s.ValuesApart) (n : SlotNo) : (s.setChanged n).ValuesApart :=
  h.setSlot n (h.values.parked_fits n) (h.values.fade_fits n)

theorem State.ValuesApart.setUrgent (h : s.ValuesApart) (n : SlotNo) : (s.setUrgent n).ValuesApart :=
  h.setSlot n (h.values.parked_fits n) (h.values.fade_fits n)

theorem State.ValuesApart.evaluated (h : s.ValuesApart) (n : SlotNo) (g : Group) : (s.evaluated n g).ValuesApart :=
  h.setFade n g fun y hy => h.values.fade_fits n g y (State.runningFade_eq_some.mp hy).1

theorem State.ValuesApart.evaluatedAll (h : s.ValuesApart) (n : SlotNo) : (s.evaluatedAll n).ValuesApart :=
  ((h.evaluated n .aim).evaluated n .colour).evaluated n .level

theorem State.ValuesApart.foldl {α : Type} {f : State → α → State} (step : ∀ s a, s.ValuesApart → (f s a).ValuesApart)
    (l : List α) (h : s.ValuesApart) : (l.foldl f s).ValuesApart := by
  induction l generalizing s with
  | nil => exact h
  | cons a rest ih => exact ih (step s a h)

theorem State.ValuesApart.raiseTo (h : s.ValuesApart) (l : Link) (n : Notice) : (s.raiseTo l n).ValuesApart :=
  h.told (s.raiseTo_told l n).linksTold rfl rfl rfl

theorem State.ValuesApart.raiseEach (h : s.ValuesApart) (ls : List Link) (n : Notice) : (s.raiseEach ls n).ValuesApart :=
  .foldl (fun _ l h => h.raiseTo l n) ls h

theorem State.ValuesApart.raiseAll (h : s.ValuesApart) (n : Notice) : (s.raiseAll n).ValuesApart :=
  h.raiseEach allLinks n

theorem State.ValuesApart.answer (h : s.ValuesApart) (l : Link) (f : Frame) (x : Status) (d : AnswerData) :
    (s.answer l f x d).ValuesApart := h.setLink l (h.values.loss_fits l)

theorem State.ValuesApart.raiseDisplaced (h : s.ValuesApart) (l : Link) (g : Group) (lost : List (Link × SlotNo)) :
    (s.raiseDisplaced l g lost).ValuesApart := by
  have frame := (s.raiseDisplaced_hear l g lost).2
  exact h.told (s.raiseDisplaced_told l g lost) (by rw [frame]) (by rw [frame]) (by rw [frame])

theorem State.ValuesApart.raiseRestored (h : s.ValuesApart) (cause : RestoreCause) (gains : List Gain) :
    (s.raiseRestored cause gains).ValuesApart := by
  have frame := (s.raiseRestored_hear cause gains).2
  exact h.told (s.raiseRestored_told cause gains) (by rw [frame]) (by rw [frame]) (by rw [frame])

/-! ### Changes of one claim -/

/-- Whatever claim has the number `k` stands on a group `g`. -/
def State.NumberedOn (s : State) (k : Nat) (g : Group) : Prop := ∀ c ∈ s.claims, c.number = k → c.group = g

theorem State.ValuesApart.numberedOn (h : s.ValuesApart) {c : Claim} (mem : c ∈ s.claims) :
    s.NumberedOn c.number c.group := fun d hd e => by
  rw [List.inj_on_of_nodup_map h.apart hd mem e]

theorem State.NumberedOn.congr {t : State} {k : Nat} {g : Group} (h : s.NumberedOn k g) (claims : t.claims = s.claims) :
    t.NumberedOn k g := fun c hc => h c (claims ▸ hc)

theorem State.NumberedOn.mapClaim {k : Nat} {g : Group} (h : s.NumberedOn k g) (j : Nat) {change : Claim → Claim}
    (number : ∀ c, (change c).number = c.number := by intro; rfl)
    (group : ∀ c, (change c).group = c.group := by intro; rfl) : (s.mapClaim j change).NumberedOn k g := by
  intro d hd
  obtain ⟨c, hc, rfl⟩ := List.mem_map.mp hd
  split
  · rw [number, group]; exact h c hc
  · exact h c hc

theorem State.numbers_mapClaim (s : State) (k : Nat) {change : Claim → Claim} (number : ∀ c, (change c).number = c.number) :
    (s.mapClaim k change).claims.map (·.number) = s.claims.map (·.number) := by
  unfold State.mapClaim
  rw [List.map_map]
  refine List.map_congr_left fun c _ => ?_
  simp only [Function.comp_apply]
  split
  · exact number c
  · rfl

/-- The claim numbered `k` is changed to one that fits, and no value is read from what else is. -/
theorem State.ValuesApart.of_mapClaim (h : s.ValuesApart) {t : State} {k : Nat} {change : Claim → Claim}
    (claims : t.claims = (s.mapClaim k change).claims) (slots : t.slots = s.slots) (links : t.links = s.links)
    (pair : t.pair = s.pair) (fits : ∀ c ∈ s.claims, c.number = k → c.Fits → (change c).Fits)
    (number : ∀ c, (change c).number = c.number := by intro; rfl) : t.ValuesApart := by
  refine h.of_claims slots links pair ?_ fun d hd => ?_
  · unfold State.NumbersApart
    rw [claims, s.numbers_mapClaim k number]
    exact h.apart
  · rw [claims] at hd
    obtain ⟨c, hc, rfl⟩ := List.mem_map.mp hd
    split
    · exact fits c hc ‹_› (h.claim_fits hc)
    · exact h.claim_fits hc

theorem State.ValuesApart.mapClaim (h : s.ValuesApart) (k : Nat) {change : Claim → Claim}
    (fits : ∀ c ∈ s.claims, c.number = k → c.Fits → (change c).Fits)
    (number : ∀ c, (change c).number = c.number := by intro; rfl) : (s.mapClaim k change).ValuesApart :=
  h.of_mapClaim rfl rfl rfl rfl fits number

theorem insertByNumber_perm (c : Claim) (l : List Claim) : (insertByNumber c l).Perm (c :: l) := by
  induction l with
  | nil => exact .refl _
  | cons d rest ih =>
    unfold insertByNumber
    split
    · exact (ih.cons d).trans (.swap c d rest)
    · exact .refl _

/-- R55, R62: a new claim rests at a value that fits, under a number of its own. -/
theorem State.ValuesApart.createClaim (h : s.ValuesApart) (l : Link) (n : SlotNo) {g : Group} {v : Value}
    (fits : Value.Fits g v) : (s.createClaim l n g v).ValuesApart := by
  refine h.of_claims rfl rfl rfl ?_ fun c hc => ?_
  · unfold State.NumbersApart State.createClaim
    rw [((insertByNumber_perm _ s.claims).map _).nodup_iff, List.map_cons, List.nodup_cons]
    refine ⟨?_, h.apart⟩
    have free := (firstFree_free (s.claims.map (·.number))).1
    rwa [List.length_map] at free
  · rcases mem_insertByNumber.mp hc with rfl | hc
    · exact .of_rest fits rfl rfl
    · exact h.claim_fits hc

theorem State.ValuesApart.stampTaken (h : s.ValuesApart) (k : Nat) : (s.stampTaken k).ValuesApart :=
  h.of_mapClaim (change := fun c => { c with taken := s.now, takenOrder := s.stampCount }) rfl rfl rfl rfl
    fun _ _ _ fits => fits

theorem State.ValuesApart.returnSteps (h : s.ValuesApart) (k : Nat) : (s.returnSteps k).ValuesApart :=
  h.of_mapClaim (change := fun c => { c with running := none, queue := [] }) rfl rfl rfl rfl
    fun _ _ _ fits => .of_rest fits.1 rfl rfl

theorem State.ValuesApart.arm (h : s.ValuesApart) (k : Nat) : (s.arm k).ValuesApart :=
  h.mapClaim k fun _ _ _ fits => fits

/-- R91: a step that fits its claim's group starts from a value that fits it. -/
theorem State.ValuesApart.startStep (h : s.ValuesApart) {k : Nat} {g : Group} (on : s.NumberedOn k g) (n : SlotNo)
    {x : Step} (hx : x.Fits g) {v : Value} (hv : Value.Fits g v) (t : Reading) (d : Bool) :
    (s.startStep k n x v t d).ValuesApart := by
  rw [State.startStep_frame]
  refine (h.setChanged n).of_mapClaim rfl rfl rfl rfl fun c hc number fits => ?_
  obtain ⟨rest, -, queue⟩ := fits
  have group : c.group = g := on c hc number
  refine ⟨rest, fun r hr => ?_, queue⟩
  cases hr
  exact (group.symm ▸ hx : x.Fits c.group).running (group.symm ▸ hv) rfl rfl

/-! ### SEIZE and RELEASE (R61, R62, R65, R66) -/

theorem State.ValuesApart.settleOwner (h : s.ValuesApart) (n : SlotNo) (g : Group) (k : Nat) (before : Option Claim)
    (seize : Bool) : (s.settleOwner n g k before seize).1.ValuesApart := by
  unfold State.settleOwner
  split
  · split
    · dsimp only
      split
      · exact h.setFade_none n g
      · exact h
    · exact (h.setFade_none n g).setChanged n
  · exact h

theorem State.ValuesApart.seizeSlot (h : s.ValuesApart) (l : Link) (g : Group) (n : SlotNo) :
    (s.seizeSlot l g n).1.ValuesApart := by
  have settled : ∀ v : State, v.ValuesApart → ∀ o : Option Claim,
      (match o with | none => (v, []) | some c => v.settleOwner n g c.number (s.owner n g) true).1.ValuesApart := by
    rintro v hv (_ | c)
    · exact hv
    · exact hv.settleOwner n g c.number _ true
  have present := h.values.present_fits n g
  unfold State.seizeSlot
  refine settled _ ?_ _
  split
  · exact (h.evaluated n g).createClaim l n present
  · rename_i c found
    obtain ⟨mem, -, -, rfl⟩ := State.claimOf_mem found
    refine (((h.evaluated n c.group).returnSteps c.number).mapClaim c.number ?_).stampTaken c.number
    intro d hd number fits
    have on := ((h.numberedOn mem).congr (t := s.evaluated n c.group) rfl).mapClaim c.number
      (change := fun c => { c with running := none, queue := [] })
    have group : d.group = c.group := on d hd number
    exact ⟨group.symm ▸ present, fits.2⟩

theorem State.ValuesApart.seizeSlots (h : s.ValuesApart) (l : Link) (g : Group) (slots : List SlotNo) :
    (s.seizeSlots l g slots).1.ValuesApart := by
  have fold : ∀ (slots : List SlotNo) (acc : State × List (Link × SlotNo)), acc.1.ValuesApart →
      (slots.foldl (fun acc n => ((acc.1.seizeSlot l g n).1, acc.2 ++ (acc.1.seizeSlot l g n).2)) acc).1.ValuesApart := by
    intro slots
    induction slots with
    | nil => exact fun _ h => h
    | cons n rest ih => exact fun acc h => ih _ (h.seizeSlot l g n)
  exact fold slots (s, []) h

theorem State.ValuesApart.removeClaim (h : s.ValuesApart) (c : Claim) {fade : Nat} (hf : fade ≤ 600000) :
    (s.removeClaim c fade).1.ValuesApart := by
  have frame := s.removeClaim_frame c fade
  have dropped : (s.dropClaim c.number).ValuesApart :=
    h.of_claims rfl rfl rfl (h.apart.sublist ((List.filter_sublist).map _)) fun d hd =>
      h.claim_fits (List.mem_filter.mp hd).1
  refine dropped.of_slots (by rw [frame]) (by rw [frame]) (by rw [frame]) fun n g => ?_
  rw [State.removeClaim_slot]
  by_cases hn : n = c.slot
  · rw [if_pos hn]
    refine ⟨?_, fun y hy => ?_⟩
    · dsimp only
      split
      · rw [PerGroup.set_get]
        split
        · rename_i e; exact e ▸ h.values.present_fits n g
        · exact h.values.parked_fits n g
      · exact h.values.parked_fits n g
    · dsimp only at hy
      rw [PerGroup.set_get] at hy
      split at hy
      · rename_i e
        split at hy
        · cases hy
        · split at hy
          · cases hy; exact e ▸ h.passiveRecord_fits n g hf
          · exact h.values.fade_fits n g y (e ▸ hy)
      · exact h.values.fade_fits n g y hy
  · rw [if_neg hn]
    exact ⟨h.values.parked_fits n g, h.values.fade_fits n g⟩

theorem State.ValuesApart.releaseClaims (h : s.ValuesApart) (claims : List Claim) {fade : Nat} (hf : fade ≤ 600000)
    (cause : RestoreCause) : (s.releaseClaims claims fade cause).ValuesApart := by
  have removed : ∀ (claims : List Claim) (u : State), u.ValuesApart → (u.removeClaims claims fade).1.ValuesApart := by
    intro claims
    induction claims with
    | nil => exact fun _ h => h
    | cons c rest ih =>
      intro u hu
      rw [State.removeClaims_cons]
      exact ih _ (hu.removeClaim c hf)
  exact (removed claims s h).raiseRestored cause _

/-! ### Retirement (R98) -/

theorem State.ValuesApart.checkLowMark (h : s.ValuesApart) (k : Nat) : (s.checkLowMark k).ValuesApart := by
  unfold State.checkLowMark
  split
  · exact h
  · split
    · exact (h.mapClaim k (by exact fun _ _ _ fits => fits)).raiseTo _ _
    · exact h

/-- R98: what follows a retiring step is a pending one, or in LOOP mode the step itself. -/
theorem mem_queueAtRetirement {c : Claim} {x y : Step} (h : y ∈ c.queueAtRetirement x) : y ∈ c.queue ∨ y = x := by
  unfold Claim.queueAtRetirement at h
  split at h
  · simpa using h
  · exact .inl h

theorem State.ValuesApart.retire (h : s.ValuesApart) {c : Claim} (mem : c ∈ s.claims) {r : RunningStep}
    (run : c.running = some r) : (s.retire c r).ValuesApart := by
  obtain ⟨-, running, queue⟩ := h.claim_fits mem
  have step := running r run
  have follows : ∀ y ∈ c.queueAtRetirement r.step, y.Fits c.group := fun y hy => by
    rcases mem_queueAtRetirement hy with hy | rfl
    · exact queue y hy
    · exact step.step
  have unlisted : State.ValuesApart
      { s with expiryList := s.expiryList.filter (fun e => decide (e.claim ≠ c.number)) } :=
    h.of_claims rfl rfl rfl h.apart fun _ hd => h.claim_fits hd
  have on : State.NumberedOn
      { s with expiryList := s.expiryList.filter (fun e => decide (e.claim ≠ c.number)) } c.number c.group :=
    h.numberedOn mem
  cases hq : c.queueAtRetirement r.step with
  | nil =>
    rw [State.retire_last hq]
    refine unlisted.mapClaim c.number fun d hd number fits => ?_
    have group : d.group = c.group := on d hd number
    exact .of_rest (group.symm ▸ step.1) rfl rfl
  | cons x rest =>
    rw [State.retire_next hq]
    rw [hq] at follows
    refine State.ValuesApart.checkLowMark (State.ValuesApart.startStep (g := c.group) ?_ (on.mapClaim c.number) c.slot
      (follows x List.mem_cons_self) step.1 _ _) c.number
    refine unlisted.mapClaim c.number fun d hd number fits => ?_
    have group : d.group = c.group := on d hd number
    exact ⟨fits.1, fits.2.1, fun y hy => group.symm ▸ follows y (List.mem_cons_of_mem x hy)⟩

theorem State.claim_mem {k : Nat} {c : Claim} (h : s.claim k = some c) : c ∈ s.claims := List.mem_of_find?_eq_some h

/-- The entry found is of a claim of the pool, with its running step. -/
theorem State.instantEntry_mem {c : Claim} {r : RunningStep} (h : s.instantEntry = some (c, r)) :
    c ∈ s.claims ∧ c.running = some r := by
  unfold State.instantEntry at h
  obtain ⟨e, -, he⟩ := List.exists_of_findSome?_eq_some h
  split at he
  · cases he
  · rename_i d hd
    split at he
    · cases he
    · rename_i q hq
      split at he
      · cases he; exact ⟨State.claim_mem hd, hq⟩
      · cases he

theorem State.ValuesApart.retireInstant (fuel : Nat) (h : s.ValuesApart) : (State.retireInstant fuel s).ValuesApart := by
  induction fuel generalizing s with
  | zero => exact h
  | succ fuel ih =>
    unfold State.retireInstant
    split
    · exact h
    · rename_i c r found
      obtain ⟨mem, run⟩ := State.instantEntry_mem found
      exact ih (h.retire mem run)

theorem State.ValuesApart.settleSteps (h : s.ValuesApart) : s.settleSteps.ValuesApart := by
  unfold State.settleSteps; exact h.retireInstant _

theorem State.ValuesApart.retireDue (h : s.ValuesApart) : s.retireDue.ValuesApart := by
  unfold State.retireDue
  split
  · exact h
  · split
    · split
      · exact h
      · rename_i c found
        split
        · exact h
        · exact (h.retire (State.claim_mem found) ‹_›).settleSteps
    · exact h

/-! ### STEP and HALT (R63, R94, R95, R102) -/

theorem State.settleOwner_claims (s : State) (n : SlotNo) (g : Group) (k : Nat) (before : Option Claim) (seize : Bool) :
    (s.settleOwner n g k before seize).1.claims = s.claims := by
  unfold State.settleOwner
  split
  · split
    · dsimp only; split <;> rfl
    · rfl
  · rfl

theorem State.ValuesApart.startSteps (h : s.ValuesApart) {c : Claim} (on : s.NumberedOn c.number c.group)
    (own : c.Fits) (before : Option Claim) {v : Value} (hv : Value.Fits c.group v) {x : Step} (hx : x.Fits c.group)
    {rest : List Step} (hr : ∀ y ∈ rest, y.Fits c.group) : (s.startSteps c before v x rest).1.ValuesApart := by
  have stamped : (s.stampTaken c.number).NumberedOn c.number c.group :=
    (on.mapClaim c.number (change := fun c => { c with taken := s.now, takenOrder := s.stampCount })).congr rfl
  have settled := stamped.congr (State.settleOwner_claims _ c.slot c.group c.number before false)
  have returned := (settled.mapClaim c.number (change := fun c => { c with running := none, queue := [] })).congr
    (t := State.returnSteps _ c.number) rfl
  unfold State.startSteps
  refine State.ValuesApart.startStep (g := c.group) ?_ (returned.mapClaim c.number) c.slot hx ?_ _ _
  · refine (((h.stampTaken c.number).settleOwner c.slot c.group c.number before false).returnSteps c.number).mapClaim
      c.number fun d hd number fits => ?_
    have group : d.group = c.group := returned d hd number
    exact ⟨fits.1, fits.2.1, fun y hy => group.symm ▸ hr y hy⟩
  · split
    · exact hv
    · exact Claim.ownValue_fits own s.now

theorem State.ValuesApart.stepFound (h : s.ValuesApart) (q : StepRequest) (n : SlotNo) :
    (s.stepFound q n).ValuesApart := by
  unfold State.stepFound
  split
  · exact (h.evaluated n q.group).createClaim q.link n (h.values.present_fits n q.group)
  · exact h

theorem State.ValuesApart.stepClaim (h : s.ValuesApart) (q : StepRequest) (before : Option Claim) {c : Claim}
    (mem : c ∈ s.claims) {v : Value} (hv : Value.Fits c.group v) {steps : List Step}
    (hs : ∀ x ∈ steps, x.Fits c.group) : (s.stepClaim q before v c steps).ValuesApart := by
  have set : (s.mapClaim c.number q.setFields).ValuesApart := h.mapClaim c.number fun _ _ _ fits => fits
  have own : c.Fits := h.claim_fits mem
  have on := (h.numberedOn mem).mapClaim c.number (change := q.setFields)
  unfold State.stepClaim
  split
  · exact set
  · rename_i x rest
    split
    · exact set.startSteps (c := q.setFields c) on own before hv (hs x List.mem_cons_self)
        fun y hy => hs y (List.mem_cons_of_mem x hy)
    · refine set.mapClaim c.number fun d hd number fits => ⟨fits.1, fits.2.1, fun y hy => ?_⟩
      rcases List.mem_append.mp hy with hy | hy
      · exact fits.2.2 y hy
      · exact (on d hd number : d.group = c.group).symm ▸ hs y hy

theorem State.ValuesApart.stepSlot (h : s.ValuesApart) (q : StepRequest) (n : SlotNo) {steps : List Step}
    (hs : ∀ x ∈ steps, x.Fits q.group) : (s.stepSlot q n steps).1.ValuesApart := by
  obtain ⟨none, some⟩ := s.stepSlot_eq q n steps
  cases found : (s.stepFound q n).claimOf q.link n q.group with
  | none => rw [none found]; exact h.stepFound q n
  | some c =>
    obtain ⟨mem, -, -, group⟩ := State.claimOf_mem found
    rw [some c found]
    refine ((h.stepFound q n).stepClaim q _ mem ?_ fun x hx => ?_).arm c.number
    · rw [group]; exact h.values.present_fits n q.group
    · rw [group]; exact hs x hx

theorem StepFields.toStep_fits {g : Group} {x : StepFields} (h : x.Fits g) (k : Nat) : (x.toStep k).Fits g := by
  obtain ⟨length, words, -, -⟩ := h
  exact ⟨⟨length, fun v hv => by have := words v hv; unfold FitsWord at this; omega⟩, clampTime_le _, clampTime_le _⟩

theorem zipWith_toStep_fits {g : Group} {steps : List StepFields} (h : ∀ x ∈ steps, x.Fits g) (records : List Nat) :
    ∀ y ∈ List.zipWith StepFields.toStep steps records, y.Fits g := by
  intro y hy
  rw [← List.map_uncurry_zip_eq_zipWith] at hy
  obtain ⟨⟨x, k⟩, hx, rfl⟩ := List.mem_map.mp hy
  exact StepFields.toStep_fits (h x (List.of_mem_zip hx).1) k

theorem State.ValuesApart.stepSlots (h : s.ValuesApart) (q : StepRequest) {steps : List StepFields}
    (hs : ∀ x ∈ steps, x.Fits q.group) (slots : List SlotNo) (records : List Nat) :
    (State.stepSlots q steps slots records s).1.ValuesApart := by
  induction slots generalizing records s with
  | nil => exact h
  | cons n rest ih => exact ih (h.stepSlot q n (zipWith_toStep_fits hs _)) _

theorem State.ValuesApart.takeStep (h : s.ValuesApart) (q : StepRequest) (slots : List SlotNo) {steps : List StepFields}
    (hs : ∀ x ∈ steps, x.Fits q.group) : (s.takeStep q slots steps).ValuesApart :=
  ((h.stepSlots q hs slots _).raiseDisplaced _ _ _).settleSteps

/-- R102: a claim of the pool is frozen at its own value, whatever became of the others. -/
theorem State.ValuesApart.haltClaim (h : s.ValuesApart) {c : Claim} (own : c.Fits) (on : s.NumberedOn c.number c.group) :
    (s.haltClaim c).ValuesApart ∧ ∀ k g, s.NumberedOn k g → (s.haltClaim c).NumberedOn k g := by
  unfold State.haltClaim
  split
  · exact ⟨h, fun _ _ => id⟩
  · have returned : ∀ {k g}, s.NumberedOn k g → (s.returnSteps c.number).NumberedOn k g := fun on =>
      (on.mapClaim c.number (change := fun c => { c with running := none, queue := [] })).congr rfl
    have value := Claim.ownValue_fits own s.now
    refine ⟨(h.returnSteps c.number).startStep (returned on) c.slot ⟨value, Nat.zero_le _, Nat.zero_le _⟩ value _ _,
      fun k g on => ?_⟩
    rw [State.startStep_frame]
    exact ((returned on).mapClaim c.number).congr rfl

theorem State.ValuesApart.haltClaims (h : s.ValuesApart) {claims : List Claim} (mem : ∀ c ∈ claims, c ∈ s.claims) :
    (claims.foldl State.haltClaim s).ValuesApart := by
  have fold : ∀ (claims : List Claim) (u : State), u.ValuesApart →
      (∀ c ∈ claims, c.Fits ∧ u.NumberedOn c.number c.group) → (claims.foldl State.haltClaim u).ValuesApart := by
    intro claims
    induction claims with
    | nil => exact fun _ h _ => h
    | cons c rest ih =>
      intro u hu hc
      obtain ⟨own, on⟩ := hc c List.mem_cons_self
      obtain ⟨halted, kept⟩ := hu.haltClaim own on
      exact ih _ halted fun d hd => ⟨(hc d (List.mem_cons_of_mem c hd)).1, kept _ _ (hc d (List.mem_cons_of_mem c hd)).2⟩
  exact fold claims s h fun c hc => ⟨h.claim_fits (mem c hc), h.numberedOn (mem c hc)⟩

theorem State.claimsIn_mem {l : Link} {g : Group} {slots : List SlotNo} {c : Claim} (h : c ∈ s.claimsIn l g slots) :
    c ∈ s.claims := by
  obtain ⟨n, -, found⟩ := List.mem_filterMap.mp h
  exact (State.claimOf_mem found).1

theorem State.ValuesApart.setModeOf (h : s.ValuesApart) (mode : Mode) (low : Nat) (c : Claim) :
    (s.setModeOf mode low c).ValuesApart :=
  (h.mapClaim c.number (by exact fun _ _ _ fits => fits)).arm c.number

/-! ### The clean slate (R75) -/

theorem State.ValuesApart.parkSlot (h : s.ValuesApart) (n : SlotNo) : (s.parkSlot n).ValuesApart :=
  h.setSlot n (fun g => by rw [PerGroup.make_get]; exact h.values.present_fits n g)
    (fun g y hy => by cases g <;> cases hy)

theorem State.ValuesApart.clearRig (h : s.ValuesApart) : s.clearRig.ValuesApart := by
  have emptied : ∀ u : State, u.ValuesApart → State.ValuesApart { u with claims := [], expiryList := [] } := fun u h =>
    h.of_claims rfl rfl rfl List.nodup_nil fun _ hc => absurd hc List.not_mem_nil
  exact emptied _ (.foldl (fun _ n h => h.parkSlot n) allSlots h)

end

end Sys2Proof.Machine
end

section
/-! PROOF. Changes of the pair record, silence, arrivals and the Safety Layer: what they leave of the fixtures and the
lines, and the roles, values and safety states that they keep (R12, R60, R77, R81, R154, R156). -/

namespace Sys2Proof.Machine

/-! ### The promises that a change off the lines keeps -/

/-- The fixtures, the lines and the safety state are as they were. -/
structure TableKept (s t : State) : Prop where
  lines : t.lines = s.lines
  fixtures : ∀ n, (t.slot n).fixture = (s.slot n).fixture
  safety : t.safety = s.safety
  asserted : t.safeAsserted = s.safeAsserted

theorem ClaimWork.kept {s t : State} (h : ClaimWork s t) : TableKept s t := ⟨h.lines, h.fixtures, h.safety, h.asserted⟩

theorem TableKept.trans {s t u : State} (h : TableKept s t) (k : TableKept t u) : TableKept s u where
  lines := k.lines.trans h.lines
  fixtures n := (k.fixtures n).trans (h.fixtures n)
  safety := k.safety.trans h.safety
  asserted := k.asserted.trans h.asserted

/-- A change that leaves fixtures, lines and safety state, and keeps the promises about roles and values. -/
structure PairWork (s t : State) : Prop where
  kept : TableKept s t
  roles : s.RolesSound → t.RolesSound
  values : s.ValuesApart → t.ValuesApart

theorem PairWork.refl (s : State) : PairWork s s := ⟨(ClaimWork.refl s).kept, id, id⟩

theorem PairWork.trans {s t u : State} (h : PairWork s t) (k : PairWork t u) : PairWork s u :=
  ⟨h.kept.trans k.kept, k.roles ∘ h.roles, k.values ∘ h.values⟩

theorem PairWork.ite {s t u : State} {c : Prop} [Decidable c] (ht : PairWork s t) (hu : PairWork s u) :
    PairWork s (if c then t else u) := by
  split <;> assumption

theorem ClaimWork.pairWork {s t : State} (h : ClaimWork s t) (values : s.ValuesApart → t.ValuesApart) : PairWork s t :=
  ⟨h.kept, h.roles, values⟩

section
variable (s : State)

theorem State.setLink_pairWork (l : Link) {r : LinkRec} (fade : r.lossFade = (s.link l).lossFade) :
    PairWork s (s.setLink l r) :=
  (s.setLink_work l r).pairWork fun h => h.setLink l (fade ▸ h.values.loss_fits l)

theorem State.answer_pairWork (l : Link) (f : Frame) (x : Status) (d : AnswerData) : PairWork s (s.answer l f x d) :=
  s.setLink_pairWork l rfl

theorem State.raiseTo_pairWork (l : Link) (n : Notice) : PairWork s (s.raiseTo l n) :=
  (s.raiseTo_work l n).pairWork fun h => h.raiseTo l n

/-! ### The pair record (R60, R70, R77 to R81, R85) -/

/-- A new pair record gives each link the role it had. -/
theorem State.setPair_pairWork {p : Pair} (roles : ∀ l, p.roleFor l = s.pair.roleFor l)
    (fade : s.pair.failoverFade ≤ 600000 → p.failoverFade ≤ 600000) : PairWork s { s with pair := p } where
  kept := ⟨rfl, fun _ => rfl, rfl, rfl⟩
  roles sound c hc := (sound c hc).trans (roles c.link).symm
  values h := ⟨h.apart,
    { parked_fits := h.values.parked_fits, fade_fits := h.values.fade_fits, claim_fits := h.values.claim_fits
      failover_fits := fade h.values.failover_fits, loss_fits := h.values.loss_fits }⟩

theorem State.changeRoles_pairWork (p : Pair) (fade : Nat) (hf : s.ValuesSound → fade ≤ 600000)
    (hp : p.failoverFade = s.pair.failoverFade) : PairWork s (s.changeRoles p fade) := by
  obtain ⟨frame, slots, -⟩ := s.foldl_roleChangeOn (s.withRoles p) fade s.consoleGroups
  have raised := State.raiseRestored_work (s.consoleGroups.foldl (s.roleChangeOn fade) (s.withRoles p, [])).1 .pair
    (s.consoleGroups.foldl (s.roleChangeOn fade) (s.withRoles p, [])).2
  have values : State.ValuesApart (s.consoleGroups.foldl (s.roleChangeOn fade) (s.withRoles p, [])).1 →
      (s.changeRoles p fade).ValuesApart := fun h => h.raiseRestored .pair _
  change ClaimWork _ (s.changeRoles p fade) at raised
  generalize (s.consoleGroups.foldl (s.roleChangeOn fade) (s.withRoles p, [])).1 = u at frame slots raised values
  refine ⟨TableKept.trans ⟨?_, fun n => ?_, ?_, ?_⟩ raised.kept, fun _ => raised.roles ?_, fun h => values ?_⟩
  · rw [frame]; rfl
  · rw [slots]; rfl
  · rw [frame]; rfl
  · rw [frame]; rfl
  · rw [frame]; exact s.withRoles_roles p
  · have recast : (s.withRoles p).ValuesApart := by
      refine ⟨?_, ⟨h.values.parked_fits, h.values.fade_fits, fun c hc => ?_, ?_, h.values.loss_fits⟩⟩
      · unfold State.NumbersApart State.withRoles
        rw [List.map_map]
        exact h.apart
      · obtain ⟨d, hd, rfl⟩ := List.mem_map.mp hc
        have own : d.Fits := h.claim_fits hd
        exact own
      · exact hp.symm ▸ h.values.failover_fits
    refine recast.of_slots (by rw [frame]) (by rw [frame]) (by rw [frame]) fun n g => ?_
    rw [slots]
    refine ⟨h.values.parked_fits n g, fun x hx => ?_⟩
    dsimp only [Slot.roleChanged] at hx
    rw [PerGroup.make_get] at hx
    split at hx
    · cases hx; exact h.passiveRecord_fits n g (hf h.values)
    · exact h.values.fade_fits n g x hx

theorem State.raisePairChanged_pairWork (cause : PairCause) (fade : Nat) : PairWork s (s.raisePairChanged cause fade) :=
  (s.raiseEach_work _ _).pairWork fun h => h.raiseEach _ _

theorem State.swap_pairWork {fade : Nat} (hf : s.ValuesSound → fade ≤ 600000) (cause : PairCause) :
    PairWork s (s.swap fade cause) :=
  (s.changeRoles_pairWork _ fade hf (by rfl)).trans (State.raisePairChanged_pairWork _ cause fade)

theorem State.changeOverride_pairWork (on : Bool) {fade : Nat} (hf : s.ValuesSound → fade ≤ 600000) (cause : PairCause) :
    PairWork s (s.changeOverride on fade cause) :=
  (s.changeRoles_pairWork _ fade hf (by rfl)).trans (State.raisePairChanged_pairWork _ cause fade)

/-- The ask that is pending plays no part in the roles (R60). -/
theorem State.setAsk_pairWork (b : Bool) : PairWork s { s with pair := { s.pair with askPending := b } } :=
  s.setPair_pairWork (fun _ => rfl) id

theorem State.standbySilent_pairWork : PairWork s s.standbySilent := by
  have cleared := s.setAsk_pairWork false
  unfold State.standbySilent
  exact .ite (cleared.trans (State.changeOverride_pairWork _ false (fun h => h.failover_fits) .standbySilent))
    (.ite (cleared.trans (State.raisePairChanged_pairWork _ .standbySilent 0)) (.refl s))

theorem State.consoleLive_pairWork (l : Link) : PairWork s (s.consoleLive l) :=
  .ite (s.swap_pairWork (fun h => h.failover_fits) .standbyLive) (.refl s)

theorem State.consoleSilent_pairWork (l : Link) : PairWork s (s.consoleSilent l) :=
  .ite (.ite (s.swap_pairWork (fun h => h.failover_fits) .failover) (.refl s)) s.standbySilent_pairWork

/-! ### The links (R11 to R15) -/

theorem State.silence_pairWork (l : Link) : PairWork s (s.silence l) := by
  have flushed : PairWork s (s.setLink l (s.link l).flush) := s.setLink_pairWork l rfl
  unfold State.silence
  refine .ite (flushed.trans (State.consoleSilent_pairWork _ l)) (flushed.trans ?_)
  refine (State.releaseClaims_work _ _ _ .silence).pairWork fun h => h.releaseClaims _ ?_ .silence
  exact h.values.loss_fits l

theorem State.becomeLive_pairWork (l : Link) : PairWork s (s.becomeLive l) := by
  have live : PairWork s (s.setLink l { s.link l with state := .live, lastGood := s.now }) := s.setLink_pairWork l rfl
  unfold State.becomeLive
  exact .ite (live.trans (State.consoleLive_pairWork _ l)) live

theorem LinkRec.arrived_lossFade (r : LinkRec) (f : Frame) : (r.enqueue f).handOn.lossFade = r.lossFade := by
  rw [(LinkRec.handOn_spec _).1, (LinkRec.enqueue_spec r f).1]

theorem State.arrive_pairWork (l : Link) (f : Frame) : PairWork s (s.arrive l f) :=
  (s.becomeLive_pairWork l).trans (State.setLink_pairWork _ l (LinkRec.arrived_lossFade _ f))

theorem State.takeSetLink_pairWork (l target : Link) (limit fade : Nat) (f : Frame) :
    PairWork s (s.takeSetLink l target limit fade f) := by
  have stored : PairWork s (s.storeLinkSettings target limit fade) :=
    (s.setLink_work target _).pairWork fun h => h.setLink target (by
      dsimp only
      split
      · exact h.values.loss_fits target
      · exact clampTime_le fade)
  unfold State.takeSetLink
  exact PairWork.trans (.ite (stored.trans (State.silence_pairWork _ target)) stored) (State.answer_pairWork _ l f _ _)

theorem LinkRec.beginFrame_lossFade (r : LinkRec) (micros : Nat) : (r.beginFrame micros).lossFade = r.lossFade := by
  unfold LinkRec.beginFrame
  split
  · split <;> rfl
  · rfl

theorem LinkRec.endFrame_lossFade (r : LinkRec) (micros : Nat) : (r.endFrame micros).lossFade = r.lossFade := by
  unfold LinkRec.endFrame
  split
  · rfl
  · split
    · rw [(LinkRec.handOn_spec _).1]
    · rfl

/-! ### The Safety Layer (R154 to R156) -/

/-- A change of the safety state that leaves the fixtures and the lines, and keeps the promises about roles and values. -/
structure SafetyWork (s t : State) : Prop where
  lines : t.lines = s.lines
  fixtures : ∀ n, (t.slot n).fixture = (s.slot n).fixture
  roles : s.RolesSound → t.RolesSound
  values : s.ValuesApart → t.ValuesApart

theorem SafetyWork.trans {s t u : State} (h : SafetyWork s t) (k : PairWork t u) : SafetyWork s u where
  lines := k.kept.lines.trans h.lines
  fixtures n := (k.kept.fixtures n).trans (h.fixtures n)
  roles := k.roles ∘ h.roles
  values := k.values ∘ h.values

theorem State.setSafety_work (asserted : Bool) (safety : SafetyState) :
    SafetyWork s { s with safeAsserted := asserted, safety := safety } where
  lines := rfl
  fixtures _ := rfl
  roles := id
  values h := h.of_claims rfl rfl rfl h.apart h.values.claim_fits

theorem PairWork.foldl {α : Type} {f : State → α → State} (h : ∀ s a, PairWork s (f s a)) (l : List α) (s : State) :
    PairWork s (l.foldl f s) := by
  induction l generalizing s with
  | nil => exact .refl s
  | cons a rest ih => exact (h s a).trans (ih (f s a))

theorem State.setUrgentOnBound_pairWork : PairWork s s.setUrgentOnBound :=
  .foldl (fun s n => (s.setUrgent_work n).pairWork fun h => h.setUrgent n) s.boundSlots s

theorem State.raiseAll_pairWork (n : Notice) : PairWork s (s.raiseAll n) := (s.raiseAll_work n).pairWork fun h => h.raiseAll n

theorem State.assertSafety_work : SafetyWork s s.assertSafety :=
  ((s.setSafety_work true .holding).trans (State.setUrgentOnBound_pairWork _)).trans (State.raiseAll_pairWork _ _)

theorem State.releaseSafety_work : SafetyWork s s.releaseSafety :=
  (s.setSafety_work false .latched).trans (State.raiseAll_pairWork _ _)

/-- R156: the record of a clear begins at darkness. -/
theorem State.clearRecord_fits {fade : Nat} (hf : fade ≤ 600000) : (s.clearRecord fade).Fits .level :=
  ⟨⟨rfl, fun x hx => by cases hx with | head => exact Nat.zero_le _ | tail _ h => cases h⟩, hf⟩

theorem State.clearSafety_work {fade : Nat} (hf : fade ≤ 600000) : SafetyWork s (s.clearSafety fade) := by
  have faded : ∀ (ns : List SlotNo) (u : State),
      PairWork u (ns.foldl (fun u n => u.setFade n .level (some (u.clearRecord fade))) u) := fun ns u =>
    .foldl (fun u n => (u.setFade_work n .level _).pairWork fun h => h.setFade_some n .level (u.clearRecord_fits hf)) ns u
  exact (((s.setSafety_work s.safeAsserted .clear).trans (State.setUrgentOnBound_pairWork _)).trans (faded _ _)).trans
    (State.raiseAll_pairWork _ _)

end

theorem TableKept.safetySound {s t : State} (h : TableKept s t) (sound : s.SafetySound) : t.SafetySound := by
  unfold State.SafetySound; rw [h.safety, h.asserted]; exact sound

theorem State.assertSafety_sound (s : State) : s.assertSafety.SafetySound :=
  ((State.setUrgentOnBound_pairWork { s with safeAsserted := true, safety := .holding }).trans
    (State.raiseAll_pairWork _ _)).kept.safetySound (iff_of_true rfl rfl)

theorem State.releaseSafety_sound (s : State) : s.releaseSafety.SafetySound :=
  (State.raiseAll_pairWork { s with safeAsserted := false, safety := .latched } _).kept.safetySound
    (iff_of_false (fun e => nomatch e) (fun e => nomatch e))

/-- R156: a clear is taken in LATCHED, in which the filtered level is released. -/
theorem State.clearSafety_sound {s : State} (sound : s.SafetySound) (latched : s.safety = .latched) (fade : Nat) :
    (s.clearSafety fade).SafetySound := by
  have released : s.safeAsserted ≠ true := fun h => by
    rw [sound.mp h] at latched
    cases latched
  have faded : ∀ (ns : List SlotNo) (u : State),
      ClaimWork u (ns.foldl (fun u n => u.setFade n .level (some (u.clearRecord fade))) u) := fun ns u =>
    .foldl (fun u n => u.setFade_work n .level _) ns u
  exact (((State.setUrgentOnBound_pairWork { s with safety := .clear }).kept.trans (faded _ _).kept).trans
    (State.raiseAll_work _ _).kept).safetySound (iff_of_false released (fun e => nomatch e))

end Sys2Proof.Machine
end

section
/-! PROOF. What a change of fixtures and lines keeps of the Fixture Table, the offers, the bound counts and the effective
rates (R19, R21, R22, R37, R42, R142), said once for all events. -/

namespace Sys2Proof.Machine

/-! ### Fixtures and line records that follow others -/

/-- The fixture is bound as it was, and in range if it was. -/
structure Fixture.Follows (f f' : Fixture) : Prop where
  uniqueId : f'.uniqueId = f.uniqueId
  line : f'.line = f.line
  address : f'.address = f.address
  in_range : f.InRange → f'.InRange

theorem Fixture.Follows.refl (f : Fixture) : f.Follows f := ⟨rfl, rfl, rfl, id⟩

/-- Every fixture of `t` is one of `s`, bound as it was. -/
def NoNewBinding (s t : State) : Prop :=
  ∀ n f', (t.slot n).fixture = some f' → ∃ f, (s.slot n).fixture = some f ∧ f.Follows f'

theorem NoNewBinding.of_fixtures {s t : State} (h : ∀ n, (t.slot n).fixture = (s.slot n).fixture) : NoNewBinding s t :=
  fun n f' hf => ⟨f', (h n) ▸ hf, .refl f'⟩

/-- No address is offered that was not, and the bound count is 0 or as it was, in an operation that was running, with no
DROPPING and no SET or POLL exchange that was not there. -/
structure LineRec.Follows (r r' : LineRec) : Prop where
  offers : ∀ x a, r'.enrol.captured = some x → r'.enrol.offered = some a →
    r.enrol.captured = some x ∧ r.enrol.offered = some a
  bound : r'.enrol.bound = 0 ∨
    (r'.enrol.bound = r.enrol.bound ∧
      (r'.enrol.operation ≠ .none → r.enrol.operation ≠ .none ∧
        (r'.enrol.subState = some .dropping → r.enrol.subState = some .dropping) ∧
        ∀ x, r'.exchange = some x → x.frame.slotAddress.isSome = true →
          ∃ y, r.exchange = some y ∧ y.frame.slotAddress.isSome = true))

/-- A line whose enrolment record is as it was, with the exchange it had or none, follows. -/
theorem LineRec.Follows.of_enrol {r r' : LineRec} (enrol : r'.enrol = r.enrol)
    (exchange : ∀ x, r'.exchange = some x → x.frame.slotAddress.isSome = true →
      ∃ y, r.exchange = some y ∧ y.frame.slotAddress.isSome = true) : r.Follows r' where
  offers x a hx ha := ⟨enrol ▸ hx, enrol ▸ ha⟩
  bound := .inr ⟨by rw [enrol], fun h => ⟨enrol ▸ h, fun hd => enrol ▸ hd, exchange⟩⟩

theorem LineRec.Follows.refl (r : LineRec) : r.Follows r := .of_enrol rfl fun x hx hs => ⟨x, hx, hs⟩

/-- A line whose operation has not begun to bind, or has ended, follows whatever its exchange is. -/
theorem LineRec.Follows.of_rest {r r' : LineRec} (captured : r'.enrol.captured = none)
    (operation : r'.enrol.operation = .none) (bound : r'.enrol.bound = r.enrol.bound) : r.Follows r' where
  offers x a hx _ := by rw [captured] at hx; cases hx
  bound := .inr ⟨bound, fun h => absurd operation h⟩

theorem LineRec.Follows.of_start {r r' : LineRec} (captured : r'.enrol.captured = none) (bound : r'.enrol.bound = 0) :
    r.Follows r' where
  offers x a hx _ := by rw [captured] at hx; cases hx
  bound := .inl bound

/-! ### The Fixture Table, the offers and the bound counts -/

/-- The promises about the Fixture Table, the offers and the bound counts that hold in `s` hold in `t`. -/
def TableWork (s t : State) : Prop :=
  s.TableSound → s.OffersSound → t.TableSound ∧ t.OffersSound ∧ (s.BoundsSound → t.BoundsSound)

theorem TableWork.refl (s : State) : TableWork s s := fun h k => ⟨h, k, id⟩

theorem TableWork.trans {s t u : State} (h : TableWork s t) (k : TableWork t u) : TableWork s u := fun table offers => by
  obtain ⟨table', offers', bounds'⟩ := h table offers
  obtain ⟨table'', offers'', bounds''⟩ := k table' offers'
  exact ⟨table'', offers'', bounds'' ∘ bounds'⟩

theorem TableWork.ite {s t u : State} {c : Prop} [Decidable c] (ht : c → TableWork s t) (hu : ¬c → TableWork s u) :
    TableWork s (if c then t else u) := by
  split
  · exact ht ‹_›
  · exact hu ‹_›

theorem NoNewBinding.tableSound {s t : State} (h : NoNewBinding s t) (sound : s.TableSound) : t.TableSound where
  in_range n f' hf := by
    obtain ⟨f, hs, follows⟩ := h n f' hf
    exact follows.in_range (sound.in_range n f hs)
  ids_differ n m f' g' hf hg e := by
    obtain ⟨f, hs, ff⟩ := h n f' hf
    obtain ⟨g, hm, gg⟩ := h m g' hg
    exact sound.ids_differ n m f g hs hm (by rw [← ff.uniqueId, ← gg.uniqueId, e])
  addresses_differ n m f' g' hf hg line address := by
    obtain ⟨f, hs, ff⟩ := h n f' hf
    obtain ⟨g, hm, gg⟩ := h m g' hg
    exact sound.addresses_differ n m f g hs hm (by rw [← ff.line, ← gg.line, line])
      (by rw [← ff.address, ← gg.address, address])

/-- R37: as many fixtures are ONLINE as were, when all that were are. -/
theorem onlineOf_length_le {s t : State} {ln : LineNo} (h : ∀ n ∈ s.onlineOf ln, n ∈ t.onlineOf ln) :
    (s.onlineOf ln).length ≤ (t.onlineOf ln).length :=
  (List.subperm_of_subset (s.nodup_onlineOf ln) h).length_le

/-- No new binding, and line records that follow: an ONLINE fixture may be lost where nobody is counted. -/
theorem TableWork.of_follows {s t : State} (bindings : NoNewBinding s t) (lines : ∀ ln, (s.line ln).Follows (t.line ln))
    (online : s.BoundsSound → ∀ ln, (t.line ln).enrol.operation ≠ .none → (t.line ln).enrol.bound ≠ 0 →
      ∀ n ∈ s.onlineOf ln, n ∈ t.onlineOf ln) : TableWork s t := by
  refine fun table offers => ⟨bindings.tableSound table, fun ln x a hx ha n f' hf hl haddr => ?_, fun bounds ln => ?_⟩
  · obtain ⟨f, hs, follows⟩ := bindings n f' hf
    obtain ⟨captured, offered⟩ := (lines ln).offers x a hx ha
    rw [follows.uniqueId]
    exact offers ln x a captured offered n f hs (follows.line ▸ hl) (follows.address ▸ haddr)
  · obtain ⟨fits, counted⟩ := bounds ln
    by_cases zero : (t.line ln).enrol.bound = 0
    · rw [zero]
      exact ⟨Nat.zero_le _, fun _ => ⟨Nat.zero_le _, fun _ => rfl, fun _ _ _ => rfl⟩⟩
    · obtain ⟨same, running⟩ := (lines ln).bound.resolve_left zero
      rw [same]
      refine ⟨fits, fun operation => ?_⟩
      obtain ⟨operated, dropping, exchange⟩ := running operation
      obtain ⟨online', dropping', exchange'⟩ := counted operated
      refine ⟨online'.trans (onlineOf_length_le (online bounds ln operation zero)), fun h => dropping' (dropping h),
        fun x hx hs => ?_⟩
      obtain ⟨y, hy, served⟩ := exchange x hx hs
      exact exchange' y hy served

theorem mem_onlineOf_congr {s t : State} {n : SlotNo} {ln : LineNo} (h : (t.slot n).fixture = (s.slot n).fixture) :
    n ∈ t.onlineOf ln ↔ n ∈ s.onlineOf ln := by
  rw [State.mem_onlineOf, State.mem_onlineOf, h]

/-- The fixtures stay, and the line records follow. -/
theorem TableWork.of_lines {s t : State} (fixtures : ∀ n, (t.slot n).fixture = (s.slot n).fixture)
    (lines : ∀ ln, (s.line ln).Follows (t.line ln)) : TableWork s t :=
  .of_follows (.of_fixtures fixtures) lines fun _ _ _ _ n hn => (mem_onlineOf_congr (fixtures n)).mpr hn

theorem TableKept.tableWork {s t : State} (h : TableKept s t) : TableWork s t :=
  .of_lines h.fixtures fun ln => by unfold State.line; rw [h.lines]; exact .refl _

theorem ClaimWork.tableWork {s t : State} (h : ClaimWork s t) : TableWork s t := h.kept.tableWork

theorem State.setLine_tableWork {s : State} {ln : LineNo} {r : LineRec} (h : (s.line ln).Follows r) :
    TableWork s (s.setLine ln r) :=
  .of_lines (fun _ => rfl) fun k => by
    rw [State.setLine_line]
    split
    · rename_i e; subst e; exact h
    · exact .refl _

/-- A fixture that stays bound, and ONLINE if it was. -/
theorem State.setSlot_tableWork {s : State} {n : SlotNo} {x : Slot} {f f' : Fixture} (old : (s.slot n).fixture = some f)
    (new : x.fixture = some f') (follows : f.Follows f') (online : f.online = true → f'.online = true) :
    TableWork s (s.setSlot n x) := by
  refine .of_follows (fun m g' hg => ?_) (fun _ => .refl _) fun _ ln _ _ m hm => ?_
  · rw [State.setSlot_slot] at hg
    split at hg
    · rename_i e; subst e
      rw [new] at hg; cases hg
      exact ⟨f, old, follows⟩
    · exact ⟨g', hg, .refl g'⟩
  · obtain ⟨g, hg, hl, ho⟩ := State.mem_onlineOf.mp hm
    rw [State.mem_onlineOf, State.setSlot_slot]
    split
    · rename_i e; subst e
      rw [old] at hg; cases hg
      exact ⟨f', new, follows.line.trans hl, online ho⟩
    · exact ⟨g, hg, hl, ho⟩

/-! ### The effective rates (R142) -/

/-- An ONLINE slot of a line, and the maximum rate of its fixture. -/
def State.OnlineAt (s : State) (ln : LineNo) (n : SlotNo) (rate : Rate) : Prop :=
  ∃ f, (s.slot n).fixture = some f ∧ f.line = ln ∧ f.online = true ∧ f.maxRate = rate

/-- R142: the effective rate of one line is the smallest of its requested rate and those of its ONLINE slots. -/
def State.RateSound (s : State) (ln : LineNo) : Prop :=
  (s.line ln).effective.kbits ≤ (s.line ln).requested.kbits ∧
    (∀ n r, s.OnlineAt ln n r → (s.line ln).effective.kbits ≤ r.kbits) ∧
    ((s.line ln).effective = (s.line ln).requested ∨ ∃ n, s.OnlineAt ln n (s.line ln).effective)

theorem State.ratesSound_iff {s : State} : s.RatesSound ↔ ∀ ln, s.RateSound ln := by
  unfold State.RatesSound State.RateSound State.OnlineAt
  refine forall_congr' fun ln => and_congr_right fun _ => and_congr ?_ (or_congr_right ?_)
  · exact ⟨fun h n r ⟨f, hf, hl, ho, hr⟩ => hr ▸ h n f hf hl ho, fun h n f hf hl ho => h n _ ⟨f, hf, hl, ho, rfl⟩⟩
  · exact exists_congr fun n => exists_congr fun f => by rw [eq_comm (a := (s.line ln).effective)]

/-- The rates of a line and its ONLINE slots with their rates are as they were. -/
structure SameRate (s t : State) (ln : LineNo) : Prop where
  effective : (t.line ln).effective = (s.line ln).effective
  requested : (t.line ln).requested = (s.line ln).requested
  online : ∀ n r, t.OnlineAt ln n r ↔ s.OnlineAt ln n r

theorem Rate.least_cases (a b : Rate) : (a.least b = a ∨ a.least b = b) ∧
    (a.least b).kbits ≤ a.kbits ∧ (a.least b).kbits ≤ b.kbits := by
  unfold Rate.least
  split
  · exact ⟨.inl rfl, le_rfl, ‹_›⟩
  · exact ⟨.inr rfl, by omega, le_rfl⟩

/-- R142: the rate recomputed is the smallest. -/
theorem State.slowest_spec (s : State) (ln : LineNo) :
    (s.slowest ln).kbits ≤ (s.line ln).requested.kbits ∧
      (∀ n r, s.OnlineAt ln n r → (s.slowest ln).kbits ≤ r.kbits) ∧
      (s.slowest ln = (s.line ln).requested ∨ ∃ n, s.OnlineAt ln n (s.slowest ln)) := by
  have fold : ∀ (ns : List SlotNo) (r : Rate),
      let out := ns.foldl (fun r n => match (s.slot n).fixture with | none => r | some f => r.least f.maxRate) r
      out.kbits ≤ r.kbits ∧ (∀ n ∈ ns, ∀ f, (s.slot n).fixture = some f → out.kbits ≤ f.maxRate.kbits) ∧
        (out = r ∨ ∃ n ∈ ns, ∃ f, (s.slot n).fixture = some f ∧ f.maxRate = out) := by
    intro ns
    induction ns with
    | nil => exact fun r => ⟨le_rfl, fun n hn => absurd hn List.not_mem_nil, .inl rfl⟩
    | cons n rest ih =>
      intro r
      rw [List.foldl_cons]
      cases hf : (s.slot n).fixture with
      | none =>
        obtain ⟨le, all, one⟩ := ih r
        refine ⟨le, fun m hm g hg => ?_, one.imp_right fun ⟨m, hm, g, hg⟩ => ⟨m, List.mem_cons_of_mem n hm, g, hg⟩⟩
        rcases List.mem_cons.mp hm with rfl | hm
        · rw [hf] at hg; cases hg
        · exact all m hm g hg
      | some f =>
        obtain ⟨le, all, one⟩ := ih (r.least f.maxRate)
        obtain ⟨either, le_old, le_new⟩ := r.least_cases f.maxRate
        refine ⟨le.trans le_old, fun m hm g hg => ?_, ?_⟩
        · rcases List.mem_cons.mp hm with rfl | hm
          · rw [hf] at hg; cases hg
            exact le.trans le_new
          · exact all m hm g hg
        · rcases one with one | ⟨m, hm, g, hg⟩
          · rcases either with old | new
            · exact .inl (one.trans old)
            · exact .inr ⟨n, List.mem_cons_self, f, hf, (one.trans new).symm⟩
          · exact .inr ⟨m, List.mem_cons_of_mem n hm, g, hg⟩
  obtain ⟨le, all, one⟩ := fold (s.onlineOf ln) (s.line ln).requested
  refine ⟨le, fun n r ⟨f, hf, hl, ho, hr⟩ => ?_, one.imp_right fun ⟨n, hn, f, hf, hr⟩ => ?_⟩
  · exact hr ▸ all n (State.mem_onlineOf.mpr ⟨f, hf, hl, ho⟩) f hf
  · obtain ⟨g, hg, hl, ho⟩ := State.mem_onlineOf.mp hn
    rw [hf] at hg; cases hg
    exact ⟨n, f, hf, hl, ho, hr⟩

/-- R142: every line has kept its rates, or has its effective rate recomputed. -/
theorem State.RatesSound.of_lines {s t : State} (sound : s.RatesSound)
    (h : ∀ ln, SameRate s t ln ∨ (t.line ln).effective = t.slowest ln) : t.RatesSound := by
  rw [State.ratesSound_iff] at sound ⊢
  intro ln
  unfold State.RateSound
  rcases h ln with same | computed
  · simp only [same.effective, same.requested, same.online]
    exact sound ln
  · rw [computed]
    exact t.slowest_spec ln

theorem SameRate.of_fixtures {s t : State} {ln : LineNo} (effective : (t.line ln).effective = (s.line ln).effective)
    (requested : (t.line ln).requested = (s.line ln).requested)
    (fixtures : ∀ n, (t.slot n).fixture = (s.slot n).fixture) : SameRate s t ln :=
  ⟨effective, requested, fun n r => by unfold State.OnlineAt; rw [fixtures n]⟩

theorem SameRate.trans {s t u : State} {ln : LineNo} (h : SameRate s t ln) (k : SameRate t u ln) : SameRate s u ln :=
  ⟨k.effective.trans h.effective, k.requested.trans h.requested, fun n r => (k.online n r).trans (h.online n r)⟩

theorem TableKept.ratesSound {s t : State} (h : TableKept s t) (sound : s.RatesSound) : t.RatesSound :=
  sound.of_lines fun ln => .inl (.of_fixtures (by unfold State.line; rw [h.lines]) (by unfold State.line; rw [h.lines])
    h.fixtures)

/-- A line record that has kept its rates. -/
theorem State.RatesSound.setLine {s : State} (sound : s.RatesSound) {ln : LineNo} {r : LineRec}
    (effective : r.effective = (s.line ln).effective) (requested : r.requested = (s.line ln).requested) :
    (s.setLine ln r).RatesSound := by
  refine sound.of_lines fun k => .inl (.of_fixtures ?_ ?_ fun _ => rfl) <;> rw [State.setLine_line]
  · split
    · rename_i e; rw [e, effective]
    · rfl
  · split
    · rename_i e; rw [e, requested]
    · rfl

/-- The rate of a line is recomputed when its fixtures have changed and those of the other lines have not. -/
theorem State.RatesSound.recompute {s u : State} (sound : s.RatesSound) {ln : LineNo}
    (others : ∀ k, k ≠ ln → SameRate s u k) : (u.recompute ln).RatesSound := by
  refine sound.of_lines fun k => ?_
  by_cases hk : k = ln
  · subst hk
    right
    rw [State.recompute, State.setLine_line_self]
    refine State.slowest_congr k rfl ?_
    rw [State.setLine_line_self]
  · left
    refine (others k hk).trans (.of_fixtures ?_ ?_ fun _ => rfl) <;>
      rw [State.recompute, State.setLine_line_ne _ _ hk]

/-- One slot has changed, and neither its old nor its new fixture is ONLINE on the line. -/
theorem SameRate.of_slot {s t : State} {ln : LineNo} {n : SlotNo} (line : t.line ln = s.line ln)
    (others : ∀ m, m ≠ n → (t.slot m).fixture = (s.slot m).fixture) (old : ∀ r, ¬s.OnlineAt ln n r)
    (new : ∀ r, ¬t.OnlineAt ln n r) : SameRate s t ln := by
  refine ⟨by rw [line], by rw [line], fun m r => ?_⟩
  by_cases hm : m = n
  · subst hm; exact iff_of_false (new r) (old r)
  · unfold State.OnlineAt; rw [others m hm]

/-- A fixture that keeps its line, its rate and whether it is ONLINE. -/
theorem State.RatesSound.setSlot {s : State} (sound : s.RatesSound) {n : SlotNo} {x : Slot} {f f' : Fixture}
    (old : (s.slot n).fixture = some f) (new : x.fixture = some f') (line : f'.line = f.line)
    (online : f'.online = f.online) (rate : f'.maxRate = f.maxRate) : (s.setSlot n x).RatesSound := by
  refine sound.of_lines fun ln => .inl ⟨rfl, rfl, fun m r => ?_⟩
  unfold State.OnlineAt
  rw [State.setSlot_slot]
  split
  · rename_i e; subst e
    rw [old, new]
    simp only [Option.some.injEq, exists_eq_left', line, online, rate]
  · rfl

/-! ### Work on lines -/

/-- The claims, the pair record and the safety state are as they were, and so are the values that slots and links hold, but
for crossfade records that have gone. -/
structure LineWork (s t : State) : Prop where
  claims : t.claims = s.claims
  pair : t.pair = s.pair
  safety : t.safety = s.safety
  asserted : t.safeAsserted = s.safeAsserted
  parked : ∀ n, (t.slot n).parked = (s.slot n).parked
  fades : ∀ n g x, (t.slot n).fades.get g = some x → (s.slot n).fades.get g = some x
  losses : ∀ l, (t.link l).lossFade = (s.link l).lossFade

theorem LineWork.refl (s : State) : LineWork s s := ⟨rfl, rfl, rfl, rfl, fun _ => rfl, fun _ _ _ => id, fun _ => rfl⟩

theorem LineWork.trans {s t u : State} (h : LineWork s t) (k : LineWork t u) : LineWork s u where
  claims := k.claims.trans h.claims
  pair := k.pair.trans h.pair
  safety := k.safety.trans h.safety
  asserted := k.asserted.trans h.asserted
  parked n := (k.parked n).trans (h.parked n)
  fades n g x := h.fades n g x ∘ k.fades n g x
  losses l := (k.losses l).trans (h.losses l)

theorem LineWork.ite {s t u : State} {c : Prop} [Decidable c] (ht : LineWork s t) (hu : LineWork s u) :
    LineWork s (if c then t else u) := by
  split <;> assumption

theorem LineWork.foldl {α : Type} {f : State → α → State} (h : ∀ s a, LineWork s (f s a)) (l : List α) (s : State) :
    LineWork s (l.foldl f s) := by
  induction l generalizing s with
  | nil => exact .refl s
  | cons a rest ih => exact (h s a).trans (ih (f s a))

theorem LineWork.roles {s t : State} (h : LineWork s t) (sound : s.RolesSound) : t.RolesSound := by
  unfold State.RolesSound; rw [h.claims, h.pair]; exact sound

theorem LineWork.safetySound {s t : State} (h : LineWork s t) (sound : s.SafetySound) : t.SafetySound := by
  unfold State.SafetySound; rw [h.safety, h.asserted]; exact sound

theorem LineWork.values {s t : State} (h : LineWork s t) (sound : s.ValuesApart) : t.ValuesApart where
  apart := by unfold State.NumbersApart; rw [h.claims]; exact sound.apart
  values :=
    { parked_fits := fun n g => by rw [h.parked]; exact sound.values.parked_fits n g
      fade_fits := fun n g x hx => sound.values.fade_fits n g x (h.fades n g x hx)
      claim_fits := fun c hc => sound.values.claim_fits c (h.claims ▸ hc)
      failover_fits := h.pair ▸ sound.values.failover_fits
      loss_fits := fun l => by rw [h.losses]; exact sound.values.loss_fits l }

section
variable (s : State)

theorem State.setLine_work (ln : LineNo) (r : LineRec) : LineWork s (s.setLine ln r) :=
  ⟨rfl, rfl, rfl, rfl, fun _ => rfl, fun _ _ _ => id, fun _ => rfl⟩

theorem State.setTypeEntry_work (k : Fin 16) (e : TypeEntry) : LineWork s (s.setTypeEntry k e) :=
  ⟨rfl, rfl, rfl, rfl, fun _ => rfl, fun _ _ _ => id, fun _ => rfl⟩

theorem State.setSlot_lineWork (n : SlotNo) {x : Slot} (parked : x.parked = (s.slot n).parked)
    (fades : ∀ g y, x.fades.get g = some y → (s.slot n).fades.get g = some y) : LineWork s (s.setSlot n x) := by
  refine ⟨rfl, rfl, rfl, rfl, fun m => ?_, fun m g y hy => ?_, fun _ => rfl⟩
  · rw [State.setSlot_slot]
    split
    · rename_i e; rw [e, parked]
    · rfl
  · rw [State.setSlot_slot] at hy
    split at hy
    · rename_i e; subst e; exact fades g y hy
    · exact hy

/-- Links that are told of something, and nothing else. -/
theorem LinksTold.lineWork {t : State} (told : LinksTold s t) (frame : t = { s with links := t.links }) :
    LineWork s t := by
  refine ⟨by rw [frame], by rw [frame], by rw [frame], by rw [frame], fun n => by rw [frame]; rfl,
    fun n g x hx => by rw [frame] at hx; exact hx, fun l => by rw [told.hear l]⟩

theorem State.raiseAll_lineWork (n : Notice) : LineWork s (s.raiseAll n) :=
  LinksTold.lineWork s (s.raiseAll_told n).linksTold (s.raiseAll_frame n)

theorem State.raiseConditions_lineWork (n : SlotNo) (a b : ConditionSet) : LineWork s (s.raiseConditions n a b) :=
  LinksTold.lineWork s (s.raiseConditions_told n a b).linksTold (s.raiseAll_foldl_frame _)

theorem State.recompute_work (ln : LineNo) : LineWork s (s.recompute ln) := s.setLine_work ln _

theorem State.mapEnrol_work (ln : LineNo) (change : EnrolRecord → EnrolRecord) : LineWork s (s.mapEnrol ln change) :=
  s.setLine_work ln _

theorem State.answer_lineWork (l : Link) (f : Frame) (x : Status) (d : AnswerData) : LineWork s (s.answer l f x d) := by
  refine ⟨rfl, rfl, rfl, rfl, fun _ => rfl, fun _ _ _ => id, fun k => ?_⟩
  rw [State.answer_link]
  split
  · rename_i e; rw [e]
  · rfl

end

end Sys2Proof.Machine
end

section
/-! PROOF. The events of the lines: each keeps the promises about the Fixture Table, the offers, the bound counts and the
effective rates, and leaves the claims and their values (R19, R21, R22, R37, R42, R49, R142). -/

namespace Sys2Proof.Machine

/-! ### Events -/

/-- Work on lines that keeps the effective rates, and where `P` holds the Fixture Table's promises too. -/
structure LineEvent (P : Prop) (s t : State) : Prop where
  work : LineWork s t
  rates : s.RatesSound → t.RatesSound
  table : P → TableWork s t

section
variable {P Q : Prop} {s t u : State}

theorem LineEvent.refl : LineEvent P s s := ⟨.refl s, id, fun _ => .refl s⟩

theorem LineEvent.trans (h : LineEvent P s t) (k : LineEvent P t u) : LineEvent P s u :=
  ⟨h.work.trans k.work, k.rates ∘ h.rates, fun p => (h.table p).trans (k.table p)⟩

theorem LineEvent.mono (h : LineEvent P s t) (qp : Q → P) : LineEvent Q s t := ⟨h.work, h.rates, h.table ∘ qp⟩

theorem LineEvent.always (h : LineEvent True s t) : LineEvent P s t := h.mono fun _ => trivial

theorem LineEvent.ite {c : Prop} [Decidable c] (ht : c → LineEvent P s t) (hu : ¬c → LineEvent P s u) :
    LineEvent P s (if c then t else u) := by
  split
  · exact ht ‹_›
  · exact hu ‹_›

theorem LineEvent.foldl {α : Type} {f : State → α → State} (h : ∀ s a, LineEvent P s (f s a)) (l : List α) (s : State) :
    LineEvent P s (l.foldl f s) := by
  induction l generalizing s with
  | nil => exact .refl
  | cons a rest ih => exact (h s a).trans (ih (f s a))

/-- What only tells the links of something. -/
theorem TableKept.lineEvent (h : TableKept s t) (work : LineWork s t) : LineEvent P s t :=
  ⟨work, h.ratesSound, fun _ => h.tableWork⟩
end

section
variable (s : State)

theorem State.raiseAll_event (n : Notice) : LineEvent True s (s.raiseAll n) :=
  (s.raiseAll_work n).kept.lineEvent (s.raiseAll_lineWork n)

theorem State.raiseConditions_event (n : SlotNo) (a b : ConditionSet) : LineEvent True s (s.raiseConditions n a b) :=
  (ClaimWork.foldl (fun s n => s.raiseAll_work n) _ s).kept.lineEvent (s.raiseConditions_lineWork n a b)

theorem State.setChanged_event (n : SlotNo) : LineEvent True s (s.setChanged n) :=
  (s.setChanged_work n).kept.lineEvent (s.setSlot_lineWork n rfl fun _ _ => id)

theorem State.answer_event (l : Link) (f : Frame) (x : Status) (d : AnswerData) : LineEvent True s (s.answer l f x d) :=
  (s.answer_pairWork l f x d).kept.lineEvent (s.answer_lineWork l f x d)

theorem State.evaluated_event (n : SlotNo) (g : Group) : LineEvent True s (s.evaluated n g) := by
  refine (s.evaluated_work n g).kept.lineEvent (s.setSlot_lineWork n rfl fun h y hy => ?_)
  rw [PerGroup.set_get] at hy
  split at hy
  · rename_i e; subst e; exact (State.runningFade_eq_some.mp hy).1
  · exact hy

theorem State.evaluatedAll_event (n : SlotNo) : LineEvent True s (s.evaluatedAll n) :=
  ((s.evaluated_event n .aim).trans (State.evaluated_event _ n .colour)).trans (State.evaluated_event _ n .level)

/-- A write to a line's record that keeps its rates, and follows. -/
theorem State.setLine_event {P : Prop} (ln : LineNo) {r : LineRec} (follows : P → (s.line ln).Follows r)
    (effective : r.effective = (s.line ln).effective := by rfl)
    (requested : r.requested = (s.line ln).requested := by rfl) : LineEvent P s (s.setLine ln r) :=
  ⟨s.setLine_work ln r, fun h => h.setLine effective requested, fun p => State.setLine_tableWork (follows p)⟩

/-- The same, with the enrolment record and the exchange as they were. -/
theorem State.setLine_event_same (ln : LineNo) {r : LineRec} (enrol : r.enrol = (s.line ln).enrol := by rfl)
    (exchange : r.exchange = (s.line ln).exchange := by rfl)
    (effective : r.effective = (s.line ln).effective := by rfl)
    (requested : r.requested = (s.line ln).requested := by rfl) : LineEvent True s (s.setLine ln r) :=
  s.setLine_event ln (fun _ => .of_enrol enrol fun x hx hs => ⟨x, exchange ▸ hx, hs⟩) effective requested

/-- A write to a slot whose fixture stays bound as it was, ONLINE or MISSING, at its rate. -/
theorem State.setSlot_event (n : SlotNo) {x : Slot} {f f' : Fixture} (old : (s.slot n).fixture = some f)
    (new : x.fixture = some f') (follows : f.Follows f') (online : f'.online = f.online) (rate : f'.maxRate = f.maxRate)
    (parked : x.parked = (s.slot n).parked := by rfl) (fades : x.fades = (s.slot n).fades := by rfl) :
    LineEvent True s (s.setSlot n x) where
  work := s.setSlot_lineWork n parked fun _ _ hy => fades ▸ hy
  rates h := h.setSlot old new follows.line online rate
  table _ := State.setSlot_tableWork old new follows fun h => online.trans h

theorem State.putCondition_event (ln : LineNo) (k : LineCondition) (b : Bool) :
    LineEvent True s (s.putCondition ln k b) :=
  .ite (fun _ => .refl) fun _ => (s.setLine_event_same ln).trans (State.raiseAll_event _ _)

/-! ### The ends of operations and of lines (R39, R147) -/

theorem State.endOperation_event (ln : LineNo) (o : EnrolOutcome) : LineEvent True s (s.endOperation ln o) := by
  have rest : LineEvent True s
      (s.setLine ln { s.line ln with enrol := EnrolRecord.atRest (s.line ln).enrol.bound, seq := .idle }) :=
    s.setLine_event ln fun _ => .of_rest rfl rfl rfl
  exact .ite (fun _ => rest) fun _ => rest.trans (State.raiseAll_event _ _)

theorem State.stopOperation_event (ln : LineNo) (c : LineCondition) : LineEvent True s (s.stopOperation ln c) :=
  ((s.putCondition_event ln c true).trans (State.setLine_event_same _ ln)).trans (State.endOperation_event _ ln _)

/-- R50, R142: every ONLINE slot of a line goes MISSING, and its rate is recomputed. -/
def State.lineLost (cause : GoneCause) (ln : LineNo) : State :=
  ((s.onlineOf ln).foldl (State.makeMissing · cause) s).recompute ln

theorem State.makeMissing_lineWork (cause : GoneCause) (n : SlotNo) : LineWork s (s.makeMissing cause n) := by
  unfold State.makeMissing
  split
  · exact .refl s
  · exact (s.setSlot_lineWork n (by rfl) (by exact fun _ _ => id)).trans (State.raiseAll_lineWork _ _)

theorem Fixture.lost_follows (f : Fixture) : f.Follows { f with online := false, pollTime := none } :=
  ⟨rfl, rfl, rfl, fun h => { h with online_misses := fun e => nomatch e }⟩

/-- The line loses its ONLINE fixtures where its operation, if one runs, has bound nobody. -/
theorem State.lineLost_event (cause : GoneCause) (ln : LineNo) :
    LineEvent (s.BoundsSound → (s.line ln).enrol.operation ≠ .none → (s.line ln).enrol.bound = 0) s
      (s.lineLost cause ln) := by
  obtain ⟨frame, -, slots⟩ := State.makeMissing_foldl cause (s.onlineOf ln) (s.nodup_onlineOf ln) s
  have work : LineWork s ((s.onlineOf ln).foldl (State.makeMissing · cause) s) :=
    .foldl (fun s n => s.makeMissing_lineWork cause n) _ s
  unfold State.lineLost
  generalize (s.onlineOf ln).foldl (State.makeMissing · cause) s = u at frame slots work
  have kept : ∀ {n}, n ∉ s.onlineOf ln → u.slot n = s.slot n := fun h => by rw [slots, if_neg h]
  have lost : ∀ {n f'}, n ∈ s.onlineOf ln → (u.slot n).fixture = some f' →
      ∃ f, (s.slot n).fixture = some f ∧ f' = { f with online := false, pollTime := none } := fun hn hf => by
    rw [slots, if_pos hn] at hf
    obtain ⟨f, hs, e⟩ := Option.map_eq_some_iff.mp hf
    exact ⟨f, hs, e.symm⟩
  have lines : u.lines = s.lines := by rw [frame]
  have line : ∀ k, u.line k = s.line k := fun k => by unfold State.line; rw [lines]
  refine ⟨work.trans (u.recompute_work ln), fun h => h.recompute fun k hk => ?_, fun unbound => ?_⟩
  · refine ⟨by rw [line], by rw [line], fun n r => ?_⟩
    by_cases hn : n ∈ s.onlineOf ln
    · refine iff_of_false (fun ⟨f', hf, _, ho, _⟩ => ?_) (fun ⟨f, hf, hl, _, _⟩ => ?_)
      · obtain ⟨f, -, rfl⟩ := lost hn hf
        cases ho
      · obtain ⟨g, hg, hl', -⟩ := State.mem_onlineOf.mp hn
        rw [hf] at hg; cases hg
        exact hk (hl.symm.trans hl')
    · unfold State.OnlineAt; rw [kept hn]
  · have missing : TableWork s u := by
      refine .of_follows (fun n f' hf => ?_) (fun k => by rw [line]; exact .refl _) fun bounds k operation bound n hn => ?_
      · by_cases hn : n ∈ s.onlineOf ln
        · obtain ⟨f, hs, rfl⟩ := lost hn hf
          exact ⟨f, hs, f.lost_follows⟩
        · rw [kept hn] at hf
          exact ⟨f', hf, .refl f'⟩
      · rw [line] at operation bound
        have other : n ∉ s.onlineOf ln := fun hl => by
          obtain ⟨f, hf, on, -⟩ := State.mem_onlineOf.mp hn
          obtain ⟨g, hg, on', -⟩ := State.mem_onlineOf.mp hl
          rw [hf] at hg; cases hg
          obtain rfl : k = ln := on.symm.trans on'
          exact bound (unbound bounds operation)
        exact (mem_onlineOf_congr (by rw [kept other])).mpr hn
    exact missing.trans (State.setLine_tableWork (.of_enrol rfl fun x hx hs => ⟨x, hx, hs⟩))

theorem State.goOff_event (ln : LineNo) : LineEvent ((s.line ln).enrol.operation = .none) s (s.goOff ln) := by
  have off : LineEvent True s (s.setLine ln { s.line ln with seq := .off, disablePending := false }) :=
    s.setLine_event_same ln
  refine off.always.trans ((State.lineLost_event _ .lineOff ln).mono fun none _ operation => ?_)
  rw [State.setLine_line_self] at operation
  exact absurd none operation

theorem State.abandonAndGoOff_event (ln : LineNo) : LineEvent True s (s.abandonAndGoOff ln) := by
  unfold State.abandonAndGoOff
  split
  · exact (s.goOff_event ln).mono fun _ => ‹_›
  · refine (s.endOperation_event ln .abandoned).trans ((State.goOff_event _ ln).mono fun _ => ?_)
    rw [State.endOperation_frame]
    exact congrArg (fun r : LineRec => r.enrol.operation) (s.setLine_line_self ln _)

theorem State.endExchange_event (ln : LineNo) : LineEvent True s (s.endExchange ln) := by
  have freed : ∀ (rate : Rate) (rested : Nat), LineEvent True s
      (s.setLine ln { s.line ln with exchange := none, restRate := rate, restedAt := rested }) := fun rate rested =>
    s.setLine_event ln fun _ => .of_enrol rfl fun _ hx => nomatch hx
  unfold State.endExchange
  dsimp only
  split
  · exact (freed _ _).trans (State.abandonAndGoOff_event _ ln)
  · exact (freed _ _).trans (State.setLine_event_same _ ln)

/-- A change of the enrolment record that follows. -/
theorem State.mapEnrol_event {P : Prop} (ln : LineNo) (change : EnrolRecord → EnrolRecord)
    (follows : P → (s.line ln).Follows { s.line ln with enrol := change (s.line ln).enrol }) :
    LineEvent P s (s.mapEnrol ln change) := s.setLine_event ln follows

/-- A change of sub-state, attempt or giving up. -/
theorem LineRec.Follows.of_progress {r r' : LineRec} (captured : r'.enrol.captured = r.enrol.captured)
    (offered : r'.enrol.offered = r.enrol.offered) (bound : r'.enrol.bound = r.enrol.bound)
    (operation : r'.enrol.operation = r.enrol.operation)
    (dropping : r'.enrol.subState = some .dropping → r.enrol.subState = some .dropping)
    (exchange : ∀ x, r'.exchange = some x → x.frame.slotAddress.isSome = true →
      ∃ y, r.exchange = some y ∧ y.frame.slotAddress.isSome = true) : r.Follows r' where
  offers _ _ hx ha := ⟨captured ▸ hx, offered ▸ ha⟩
  bound := .inr ⟨bound, fun h => ⟨operation ▸ h, dropping, exchange⟩⟩

/-! ### Replies to SET and POLL (R49 to R52) -/

variable {s}

theorem State.ackSet_event {n : SlotNo} {f : Fixture} (bound : (s.slot n).fixture = some f) (c : ConditionSet)
    (p q : Nat) : LineEvent True s (s.ackSet n f c p q) := by
  unfold State.ackSet
  refine LineEvent.trans (s.setSlot_event n bound rfl ⟨?_, ?_, ?_, fun h => ?_⟩ ?_ ?_)
    (State.raiseConditions_event _ _ _ _)
  iterate 3 · split <;> rfl
  · have range : ∀ g : Fixture, g.InRange → { g with misses := 0, conditions := c }.InRange := fun g h =>
      { h with misses_range := Nat.zero_le _, online_misses := fun e => ⟨Nat.zero_le _, (h.online_misses e).2⟩ }
    refine range _ ?_
    split
    · exact { h with }
    · exact h
  iterate 2 · split <;> rfl

/-- R52, R125: the fixture that a good ACK to a POLL returns. -/
def Fixture.returned (f : Fixture) (c : ConditionSet) (p q : Nat) (now : Stamp) : Fixture :=
  { f with refPan := p, refTilt := q, refTime := now, online := true, misses := 0, conditions := c, pollTime := none }

theorem Fixture.returned_follows (f : Fixture) (c : ConditionSet) (p q : Nat) (now : Stamp) :
    f.Follows (f.returned c p q now) :=
  ⟨rfl, rfl, rfl, fun h => { h with misses_range := Nat.zero_le _, online_misses := fun _ => ⟨Nat.zero_le _, rfl⟩ }⟩

variable (s) in
theorem State.ackPoll_eq (ln : LineNo) (n : SlotNo) (f : Fixture) (c : ConditionSet) (p q : Nat) :
    s.ackPoll ln n f c p q =
      (((((s.setSlot n { s.slot n with fixture := some (f.returned c p q s.stampNow) }).setChanged n).raiseAll
        (.fixtureJoined n ln f.address f.typeCode true)).raiseConditions n f.conditions c)).recompute ln := rfl

theorem State.ackPoll_event {ln : LineNo} {n : SlotNo} {f : Fixture} (bound : (s.slot n).fixture = some f)
    (line : f.line = ln) (c : ConditionSet) (p q : Nat) : LineEvent True s (s.ackPoll ln n f c p q) := by
  rw [State.ackPoll_eq]
  generalize hf : f.returned c p q s.stampNow = f'
  have follows : f.Follows f' := hf ▸ f.returned_follows c p q s.stampNow
  have online : f'.online = true := hf ▸ rfl
  have slot : TableWork s (s.setSlot n { s.slot n with fixture := some f' }) :=
    State.setSlot_tableWork bound rfl follows fun _ => online
  have work : LineWork s (s.setSlot n { s.slot n with fixture := some f' }) :=
    s.setSlot_lineWork n rfl fun _ _ => id
  have elsewhere : ∀ k, k ≠ ln → SameRate s (s.setSlot n { s.slot n with fixture := some f' }) k := by
    refine fun k hk => .of_slot (n := n) rfl (fun m hm => by rw [State.setSlot_slot_ne _ _ hm]) ?_ ?_
    · rintro r ⟨g, hg, hl, -⟩
      rw [bound] at hg; cases hg
      exact hk (hl.symm.trans line)
    · rintro r ⟨g, hg, hl, -⟩
      rw [State.setSlot_slot_self] at hg; cases hg
      exact hk (hl.symm.trans (follows.line.trans line))
  generalize s.setSlot n { s.slot n with fixture := some f' } = u at slot work elsewhere
  have kept : TableKept u
      (((u.setChanged n).raiseAll (.fixtureJoined n ln f.address f.typeCode true)).raiseConditions n f.conditions c) :=
    ((u.setChanged_work n).kept.trans (State.raiseAll_work _ _).kept).trans
      (ClaimWork.foldl (fun s n => s.raiseAll_work n) _ _).kept
  have told : LineEvent True u
      (((u.setChanged n).raiseAll (.fixtureJoined n ln f.address f.typeCode true)).raiseConditions n f.conditions c) :=
    ((u.setChanged_event n).trans (State.raiseAll_event _ _)).trans (State.raiseConditions_event _ _ _ _)
  generalize ((u.setChanged n).raiseAll (.fixtureJoined n ln f.address f.typeCode true)).raiseConditions n
    f.conditions c = v at kept told
  have same : ∀ k, SameRate u v k := fun k =>
    .of_fixtures (by unfold State.line; rw [kept.lines]) (by unfold State.line; rw [kept.lines]) kept.fixtures
  exact ⟨(work.trans told.work).trans (v.recompute_work ln),
    fun h => h.recompute fun k hk => (elsewhere k hk).trans (same k),
    fun p => (slot.trans (told.table p)).trans (State.setLine_tableWork (.of_enrol rfl fun x hx hs => ⟨x, hx, hs⟩))⟩

/-- R49: a miss of an ONLINE slot, of which no running operation counts a binding. -/
theorem State.missSet_event {ln : LineNo} {n : SlotNo} {f : Fixture} (bound : (s.slot n).fixture = some f)
    (line : f.line = ln) (online : f.online = true) :
    LineEvent (s.BoundsSound → (s.line ln).enrol.operation ≠ .none → (s.line ln).enrol.bound = 0) s
      (s.missSet ln n f) := by
  obtain ⟨frame, told, own, others, slots⟩ := s.missSet_frame ln n f
  have slot : (s.missSet ln n f).slot n =
      if 3 ≤ f.misses + 1 then
        { s.slot n with fixture := some { f with misses := f.misses + 1, online := false, pollTime := none } }
      else { s.slot n with fixture := some { f with misses := f.misses + 1 } } := by
    unfold State.missSet
    dsimp only
    split
    · rw [State.recompute, State.setLine_slot, State.makeMissing_slot, if_pos rfl, State.setSlot_slot_self]; rfl
    · rw [State.setSlot_slot_self]
  have fixture : ∃ f', ((s.missSet ln n f).slot n).fixture = some f' ∧ f.Follows f' ∧ f'.line = ln := by
    rw [slot]
    split
    · refine ⟨_, rfl, ⟨rfl, rfl, rfl, fun h => ?_⟩, line⟩
      exact { h with
        misses_range := by have := (h.online_misses online).1; dsimp only; omega
        online_misses := fun e => nomatch e }
    · rename_i few
      refine ⟨_, rfl, ⟨rfl, rfl, rfl, fun h => ?_⟩, line⟩
      exact { h with
        misses_range := by dsimp only; omega
        online_misses := fun e => ⟨by dsimp only; omega, (h.online_misses e).2⟩ }
  obtain ⟨f', hf', follows, line'⟩ := fixture
  have elsewhere : ∀ k, k ≠ ln → SameRate s (s.missSet ln n f) k := fun k hk =>
    .of_slot (n := n) (others k hk) (fun m hm => by rw [slots m hm])
      (fun _ ⟨_, hg, hl, _⟩ => by rw [bound] at hg; cases hg; exact hk (hl.symm.trans line))
      (fun _ ⟨_, hg, hl, _⟩ => by rw [hf'] at hg; cases hg; exact hk (hl.symm.trans line'))
  refine ⟨⟨by rw [frame], by rw [frame], by rw [frame], by rw [frame], fun m => ?_, fun m g y hy => ?_,
    fun l => by rw [told l]⟩, fun h => h.of_lines fun k => ?_, fun unbound => ?_⟩
  · by_cases hm : m = n
    · subst hm; rw [slot]; split <;> rfl
    · rw [slots m hm]
  · by_cases hm : m = n
    · subst hm; rw [slot] at hy; split at hy <;> exact hy
    · rwa [slots m hm] at hy
  · by_cases hk : k = ln
    · subst hk
      by_cases third : 3 ≤ f.misses + 1
      · right
        unfold State.missSet
        dsimp only
        rw [if_pos third, State.recompute, State.setLine_line_self]
        exact State.slowest_congr k rfl (by rw [State.setLine_line_self])
      · left
        have counted : s.missSet k n f = s.setSlot n { s.slot n with fixture := some { f with misses := f.misses + 1 } } := by
          unfold State.missSet; exact if_neg third
        rw [counted]
        refine ⟨rfl, rfl, fun m r => ?_⟩
        unfold State.OnlineAt
        rw [State.setSlot_slot]
        split
        · rename_i e; subst e; simp [bound]
        · rfl
    · exact .inl (elsewhere k hk)
  · refine .of_follows (fun m g' hg => ?_) (fun k => ?_) fun bounds k operation nonzero m hm => ?_
    · by_cases hm : m = n
      · subst hm
        rw [hf'] at hg; cases hg
        exact ⟨f, bound, follows⟩
      · rw [slots m hm] at hg
        exact ⟨g', hg, .refl g'⟩
    · by_cases hk : k = ln
      · subst hk
        rw [own]
        exact .of_enrol rfl fun x hx hs => ⟨x, hx, hs⟩
      · rw [others k hk]; exact .refl _
    · have off : k ≠ ln := by
        rintro rfl
        rw [own] at operation nonzero
        exact nonzero (unbound bounds operation)
      have other : m ≠ n := by
        rintro rfl
        obtain ⟨g, hg, hl, -⟩ := State.mem_onlineOf.mp hm
        rw [bound] at hg; cases hg
        exact off (hl.symm.trans line)
      exact (mem_onlineOf_congr (by rw [slots m other])).mpr hm

theorem State.exchangeSlot_eq_some {ln : LineNo} {n : SlotNo} {b : Bool} {f : Fixture} :
    s.exchangeSlot ln n b = some f ↔ (s.slot n).fixture = some f ∧ f.line = ln ∧ f.online = b := by
  unfold State.exchangeSlot
  cases hf : (s.slot n).fixture with
  | none => simp
  | some g =>
    dsimp only
    constructor
    · intro h
      split at h
      · cases h; exact ⟨rfl, ‹_›⟩
      · cases h
    · rintro ⟨h, on⟩
      cases h
      exact if_pos on

theorem State.applySet_event (ln : LineNo) (n : SlotNo) (o : AckOutcome) :
    LineEvent (s.BoundsSound → (s.line ln).enrol.operation ≠ .none → (s.line ln).enrol.bound = 0) s
      (s.applySet ln n o) := by
  unfold State.applySet
  split
  · exact .refl
  · rename_i f found
    obtain ⟨bound, line, online⟩ := State.exchangeSlot_eq_some.mp found
    split
    · exact (State.ackSet_event bound _ _ _).always
    · exact State.missSet_event bound line online

theorem State.applyPoll_event (ln : LineNo) (n : SlotNo) (o : AckOutcome) : LineEvent True s (s.applyPoll ln n o) := by
  unfold State.applyPoll
  split
  · split
    · exact .refl
    · rename_i f found
      obtain ⟨bound, line, -⟩ := State.exchangeSlot_eq_some.mp found
      exact State.ackPoll_event bound line _ _ _
  · exact .refl

/-- R37, R140: an operation that was taken while a SET was in flight has bound nobody. -/
theorem State.applyOutcome_event {ln : LineNo} {x : Exchange} (flight : (s.line ln).exchange = some x) (o : AckOutcome) :
    LineEvent True s (s.applyOutcome ln x.frame o) := by
  have applied : LineEvent True s
      (match x.frame with | .set n .. => s.applySet ln n o | .poll n _ => s.applyPoll ln n o | _ => s) := by
    split
    · rename_i frame
      exact (State.applySet_event ln _ o).mono fun _ bounds operation =>
        ((bounds ln).2 operation).2.2 x flight (by rw [frame]; rfl)
    · exact State.applyPoll_event ln _ o
    · exact .refl
  exact .ite (fun _ => applied.trans (State.putCondition_event _ _ _ _)) fun _ => applied

theorem State.endReply_event (ln : LineNo) (reply : List RxChar) : LineEvent True s (s.endReply ln reply) := by
  unfold State.endReply
  split
  · exact .refl
  · rename_i flight
    split
    · exact .refl
    · exact .ite (fun _ => (State.applyOutcome_event flight _).trans (State.endExchange_event _ ln)) fun _ => .refl

theorem State.expireReply_event (ln : LineNo) : LineEvent True s (s.expireReply ln) := by
  unfold State.expireReply
  split
  · exact .refl
  · rename_i flight
    split
    · exact .refl
    · exact .ite (fun _ => (State.applyOutcome_event flight _).trans (State.endExchange_event _ ln)) fun _ => .refl

end

end Sys2Proof.Machine
end

section
/-! PROOF. The frames of a line, enrolment, bindings, the pick and the setup requests: what they keep of the Fixture Table,
the offers, the bound counts and the effective rates (R21, R22, R37 to R46, R136, R142 to R148). -/

namespace Sys2Proof.Machine

section
variable {s : State}

/-! ### Frames (R138, R139) -/

/-- A frame begins that serves no slot, or begins while no operation runs. -/
theorem State.beginExchange_event (s : State) (ln : LineNo) (frame : LineFrame) (rate : Rate) :
    LineEvent (frame.slotAddress = none ∨ (s.line ln).enrol.operation = .none) s (s.beginExchange ln frame rate) := by
  refine s.setLine_event ln fun idle => ⟨fun _ _ hx ha => ⟨hx, ha⟩, .inr ⟨rfl, fun operation => ?_⟩⟩
  refine ⟨operation, id, fun x hx served => ?_⟩
  cases hx
  rcases idle with unserved | none
  · dsimp only at served
    rw [unserved] at served; cases served
  · exact absurd none operation

/-- A window opens for the frame that has gone out. -/
theorem State.openWindow_event (s : State) (ln : LineNo) {x : Exchange} (flight : (s.line ln).exchange = some x) :
    LineEvent True s (s.openWindow ln x) :=
  s.setLine_event ln fun _ => .of_enrol rfl fun y hy served => by
    cases hy
    exact ⟨x, flight, served⟩

theorem EnrolRecord.nextFrame_unserved {e : EnrolRecord} {frame : LineFrame} (h : e.nextFrame = some frame) :
    frame.slotAddress = none := by
  unfold EnrolRecord.nextFrame at h
  split at h
  · cases h; rfl
  · split at h <;> cases h <;> rfl

theorem State.startEnrolFrame_event (s : State) (ln : LineNo) : LineEvent True s (s.startEnrolFrame ln) := by
  unfold State.startEnrolFrame
  dsimp only
  split
  · split
    · exact .refl
    · rename_i frame next
      refine LineEvent.trans ?_
        ((State.beginExchange_event _ ln frame .r250).mono fun _ => .inl (EnrolRecord.nextFrame_unserved next))
      exact .ite (fun _ => s.setLine_event_same ln) fun _ => .refl
  · exact .refl

theorem State.endLineFrame_event (s : State) (ln : LineNo) : LineEvent True s (s.endLineFrame ln) := by
  unfold State.endLineFrame
  split
  · exact .refl
  · rename_i x flight
    refine .ite (fun _ => ?_) fun _ => .refl
    exact (s.setLine_event_same ln).trans (State.openWindow_event _ ln (by rw [State.setLine_line_self]; exact flight))

theorem State.endAssign_event (s : State) (ln : LineNo) : LineEvent True s (s.endAssign ln) := by
  unfold State.endAssign
  split
  · exact .refl
  · rename_i x flight
    split
    · exact .ite (fun _ => s.openWindow_event ln flight) fun _ => .refl
    · exact .refl

theorem State.exchangeOver_eq_some {ln : LineNo} {phase : ExchangePhase} {frame : LineFrame} :
    s.exchangeOver ln phase = some frame ↔
      ∃ x, (s.line ln).exchange = some x ∧ x.frame = frame ∧ x.phase = phase ∧ x.ends ≤ s.micros := by
  unfold State.exchangeOver
  cases (s.line ln).exchange with
  | none => simp
  | some x =>
    dsimp only
    constructor
    · intro h
      split at h
      · cases h; exact ⟨x, rfl, rfl, ‹_›⟩
      · cases h
    · rintro ⟨y, hy, rfl, ended⟩
      cases hy
      exact if_pos ended

/-! ### The operation (R39 to R43, R45) -/

/-- R40: the DROP that opens a FULL enrolment finds it DROPPING, with nobody bound. -/
theorem State.endDrop_event (s : State) (ln : LineNo) : LineEvent (s.line ln).Sound s (s.endDrop ln) := by
  unfold State.endDrop
  split
  · rename_i a ended
    obtain ⟨x, flight, frame, -, -⟩ := State.exchangeOver_eq_some.mp ended
    split
    · exact ((s.stopOperation_event ln _).trans (State.endExchange_event _ ln)).always
    · rename_i kept
      have lost : LineEvent (s.line ln).Sound s (s.lineLost .dropped ln) :=
        (s.lineLost_event .dropped ln).mono fun sound bounds operation => by
          rcases sound.dropping x a flight frame with given | dropping
          · rw [kept] at given; cases given
          · exact ((bounds ln).2 operation).2.1 dropping
      have called : LineEvent True (s.lineLost .dropped ln) (s.dropAll ln) :=
        State.mapEnrol_event _ ln _ fun _ =>
          .of_progress rfl rfl rfl rfl (fun h => nomatch h) fun y hy served => ⟨y, hy, served⟩
      exact (lost.trans called.always).trans (State.endExchange_event _ ln).always
  · exact .refl

theorem State.openArbitration_event (s : State) (ln : LineNo) : LineEvent True s (s.openArbitration ln) := by
  unfold State.openArbitration
  split
  · have opened : LineEvent True s (s.mapEnrol ln (fun e => { e with subState := some .arbitrating })) :=
      s.mapEnrol_event ln _ fun _ =>
        .of_progress rfl rfl rfl rfl (fun h => nomatch h) fun y hy served => ⟨y, hy, served⟩
    exact opened.trans (State.setLine_event _ ln fun _ => .of_enrol rfl fun y hy served => by cases hy; cases served)
  · exact .refl

/-- R22, R42: the address offered is reserved for no other ID. -/
theorem State.offer_event (s : State) {ln : LineNo} {samples : BitVec 40} {a : Nat}
    (lowest : s.lowestAddress ln samples = some a) :
    LineEvent True s (s.mapEnrol ln (fun e =>
      { e with captured := some samples, offered := some a, attempt := some 1, subState := some .assigning })) := by
  refine ⟨s.mapEnrol_work ln _, fun h => h.setLine rfl rfl, fun _ table offers => ?_⟩
  obtain ⟨-, -, unreserved⟩ := State.lowestAddress_spec lowest
  have free : ∀ n f, (s.slot n).fixture = some f → f.line = ln → f.address = a → f.uniqueId = samples := by
    intro n f hf line address
    by_contra other
    refine unreserved (State.mem_reservedFor.mpr ⟨n, f, hf, line, address, fun own => other ?_⟩)
    obtain ⟨g, hg, id⟩ := State.slotOfId_spec own
    rw [hf] at hg; cases hg
    exact id
  refine ⟨NoNewBinding.tableSound (s := s) (.of_fixtures fun _ => rfl) table, ?_, fun bounds k => ?_⟩
  · intro k x b hx hb n f hf line address
    unfold State.mapEnrol at hx hb
    by_cases hk : k = ln
    · subst hk
      rw [State.setLine_line_self] at hx hb
      cases hx; cases hb
      exact free n f hf line address
    · rw [State.setLine_line_ne _ _ hk] at hx hb
      exact offers k x b hx hb n f hf line address
  · unfold State.mapEnrol
    by_cases hk : k = ln
    · subst hk
      rw [State.setLine_line_self]
      obtain ⟨fits, counted⟩ := bounds k
      exact ⟨fits, fun operation => ⟨(counted operation).1, fun h => (nomatch h), (counted operation).2.2⟩⟩
    · rw [State.setLine_line_ne _ _ hk]
      exact bounds k

theorem State.endArbitration_event (s : State) (ln : LineNo) (samples : BitVec 40) :
    LineEvent (s.line ln).Sound s (s.endArbitration ln samples) := by
  unfold State.endArbitration
  split
  · rename_i ended
    obtain ⟨x, flight, frame, phase, -⟩ := State.exchangeOver_eq_some.mp ended
    refine .ite (fun _ => ((s.endOperation_event ln .complete).trans (State.endExchange_event _ ln)).always) fun _ => ?_
    split
    · rename_i a lowest
      exact ((s.offer_event lowest).trans (State.endExchange_event _ ln)).always
    · refine (s.mapEnrol_event ln _ fun sound => ⟨fun _ b _ hb => ?_, .inr ⟨rfl, fun operation => ?_⟩⟩).trans
        (State.endExchange_event _ ln).always
      · have arbitrating := (sound.calling x flight frame).2
        rw [if_pos phase] at arbitrating
        have none := sound.offered_in_assigning (by rw [arbitrating]; decide)
        dsimp only at hb
        rw [none] at hb; cases hb
      · exact ⟨operation, id, fun y hy served => ⟨y, hy, served⟩⟩
  · exact .refl

theorem State.capsFailed_event (s : State) (ln : LineNo) (a : Nat) : LineEvent True s (s.capsFailed ln a) := by
  refine LineEvent.trans (s.mapEnrol_event ln _ fun _ => ?_) (State.endExchange_event _ ln)
  split <;> exact .of_progress rfl rfl rfl rfl id fun y hy served => ⟨y, hy, served⟩

theorem State.refuseBinding_event (s : State) (ln : LineNo) (a : Nat) (c : LineCondition) :
    LineEvent True s (s.refuseBinding ln a c) :=
  LineEvent.trans
    (s.mapEnrol_event ln _ fun _ => .of_progress rfl rfl rfl rfl id fun y hy served => ⟨y, hy, served⟩)
    (State.endExchange_event _ ln)

/-! ### Bindings (R21, R44) -/

/-- R19, R44: the slot as a binding leaves it. -/
theorem State.bindInto_slot (s : State) (n : SlotNo) (ln : LineNo) (x : BitVec 40) (a : Nat) (c : Caps) (b : Bool) :
    (s.bindInto n ln x a c b).slot n =
      { s.slot n with
        fixture := some (c.fixture x ln a (s.typeFor c.typeCode).2 ((s.slot n).fixture.bind (·.lastSent)) s.stampNow)
        flags := { (s.slot n).flags with changed := true } } := by
  unfold State.bindInto State.raiseConditions
  dsimp only
  rw [State.raiseAll_foldl_frame, State.raiseAll_frame]
  show (State.setChanged _ n).slot n = _
  unfold State.setChanged
  rw [State.setSlot_slot_self, State.setSlot_slot_self]

/-- The slot that a unique ID is bound into holds it MISSING, or is FREE while no slot holds it. -/
def State.Binds (s : State) (n : SlotNo) (x : BitVec 40) : Prop :=
  (∃ f, (s.slot n).fixture = some f ∧ f.uniqueId = x ∧ f.online = false) ∨
    ((s.slot n).fixture = none ∧ ∀ m f, (s.slot m).fixture = some f → f.uniqueId ≠ x)

theorem State.Binds.not_online {n : SlotNo} {x : BitVec 40} (h : s.Binds n x) (ln : LineNo) (r : Rate) :
    ¬s.OnlineAt ln n r := by
  rintro ⟨f, hf, -, online, -⟩
  rcases h with ⟨g, hg, -, missing⟩ | ⟨free, -⟩
  · rw [hf] at hg; cases hg
    rw [online] at missing; cases missing
  · rw [hf] at free; cases free

/-- In a sound table no other slot holds the ID. -/
theorem State.Binds.others {n m : SlotNo} {x : BitVec 40} (h : s.Binds n x) (table : s.TableSound) {f : Fixture}
    (hf : (s.slot m).fixture = some f) (hm : m ≠ n) : f.uniqueId ≠ x := by
  rcases h with ⟨g, hg, id, -⟩ | ⟨-, new⟩
  · exact fun e => hm (table.ids_differ m n f g hf hg (e.trans id.symm))
  · exact new m f hf

/-- R22: slots of one line are no more than the short addresses they can have. -/
theorem State.TableSound.length_le (table : s.TableSound) {ln : LineNo} {ns : List SlotNo} (nodup : ns.Nodup)
    {addresses : List Nat} (member : ∀ n ∈ ns, ∃ f, (s.slot n).fixture = some f ∧ f.line = ln ∧ f.address ∈ addresses) :
    ns.length ≤ addresses.length := by
  have apart : (ns.map (fun n => ((s.slot n).fixture.map (·.address)).getD 0)).Nodup := by
    refine List.Nodup.map_on (fun n hn m hm e => ?_) nodup
    obtain ⟨f, hf, lf, -⟩ := member n hn
    obtain ⟨g, hg, lg, -⟩ := member m hm
    simp only [hf, hg, Option.map_some, Option.getD_some] at e
    exact table.addresses_differ n m f g hf hg (lf.trans lg.symm) e
  have range : ns.map (fun n => ((s.slot n).fixture.map (·.address)).getD 0) ⊆ addresses := by
    intro a ha
    obtain ⟨n, hn, rfl⟩ := List.mem_map.mp ha
    obtain ⟨f, hf, -, mem⟩ := member n hn
    simpa only [hf, Option.map_some, Option.getD_some] using mem
  simpa using (List.subperm_of_subset apart range).length_le

/-- R22: the short addresses. -/
theorem mem_shortAddresses {a : Nat} : a ∈ (List.range 32).map (· + 1) ↔ 1 ≤ a ∧ a ≤ 32 := by
  rw [List.mem_map]
  constructor
  · rintro ⟨b, hb, rfl⟩
    have := List.mem_range.mp hb
    omega
  · exact fun h => ⟨a - 1, List.mem_range.mpr (by omega), by omega⟩

/-- R22: a line has no more ONLINE slots than short addresses. -/
theorem State.TableSound.onlineOf_length (table : s.TableSound) (ln : LineNo) : (s.onlineOf ln).length ≤ 32 := by
  refine (table.length_le (ln := ln) (addresses := (List.range 32).map (· + 1)) (s.nodup_onlineOf ln)
    fun n hn => ?_).trans_eq (by simp)
  obtain ⟨f, bound, line, -⟩ := State.mem_onlineOf.mp hn
  exact ⟨f, bound, line, mem_shortAddresses.mpr (table.in_range n f bound).address_range⟩

/-- What an operation needs for a binding: an address offered to the captured ID, and no SET or POLL in flight. -/
structure LineRec.Assigns (r : LineRec) (x : BitVec 40) (a : Nat) : Prop where
  captured : r.enrol.captured = some x
  offered : r.enrol.offered = some a
  range : 1 ≤ a ∧ a ≤ 32
  operation : r.enrol.operation ≠ .none
  unserved : ∀ y, r.exchange = some y → y.frame.slotAddress = none

/-- R42, R43: an ASSIGN in flight carries the captured ID and the address offered to it. -/
theorem LineRec.Sound.assigns {r : LineRec} (sound : r.Sound) {y : Exchange} {x : BitVec 40} {a : Nat}
    (flight : r.exchange = some y) (frame : y.frame = .assign x a) : r.Assigns x a := by
  obtain ⟨captured, offered, -⟩ := sound.assigning y x a flight frame
  refine ⟨captured, offered, sound.offered_range a offered, fun rest => ?_, fun z hz => ?_⟩
  · have none := (sound.at_rest rest).2.1
    rw [none] at captured; cases captured
  · rw [flight] at hz; cases hz
    rw [frame]; rfl

/-- R21, R22, R37, R44: a binding keeps the table's promises and counts one ONLINE slot more. -/
theorem State.bound_tableWork {u : State} {n : SlotNo} {ln : LineNo} {x : BitVec 40} {a : Nat} (binds : s.Binds n x)
    (assigns : (s.line ln).Assigns x a) {f : Fixture} (new : (u.slot n).fixture = some f) (id : f.uniqueId = x)
    (line : f.line = ln) (address : f.address = a) (online : f.online = true) (in_range : f.InRange)
    (slots : ∀ m, m ≠ n → (u.slot m).fixture = (s.slot m).fixture)
    (lines : ∀ k, k ≠ ln → u.line k = s.line k) (enrol : (u.line ln).enrol = (s.line ln).enrol.afterBinding)
    (exchange : (u.line ln).exchange = (s.line ln).exchange) : TableWork s u := by
  intro table offers
  have split : ∀ {m g}, (u.slot m).fixture = some g → (m = n ∧ g = f) ∨ (m ≠ n ∧ (s.slot m).fixture = some g) := by
    intro m g hg
    by_cases hm : m = n
    · subst hm; rw [new] at hg; cases hg; exact .inl ⟨rfl, rfl⟩
    · exact .inr ⟨hm, slots m hm ▸ hg⟩
  have apart : ∀ {m g}, m ≠ n → (s.slot m).fixture = some g → g.uniqueId ≠ x := fun hm hg => binds.others table hg hm
  have table' : u.TableSound := by
    refine ⟨fun m g hg => ?_, fun m k g h hg hh e => ?_, fun m k g h hg hh el ea => ?_⟩
    · rcases split hg with ⟨-, rfl⟩ | ⟨-, old⟩
      · exact in_range
      · exact table.in_range m g old
    · rcases split hg with ⟨rfl, rfl⟩ | ⟨hm, old⟩ <;> rcases split hh with ⟨rfl, rfl⟩ | ⟨hk, old'⟩
      · rfl
      · exact absurd (e.symm.trans id) (apart hk old')
      · exact absurd (e.trans id) (apart hm old)
      · exact table.ids_differ m k g h old old' e
    · have taken : ∀ {j i}, j ≠ n → (s.slot j).fixture = some i → i.line = ln → i.address ≠ a := fun hj hi li ai =>
        apart hj hi (offers ln x a assigns.captured assigns.offered _ _ hi li ai)
      rcases split hg with ⟨rfl, rfl⟩ | ⟨hm, old⟩ <;> rcases split hh with ⟨rfl, rfl⟩ | ⟨hk, old'⟩
      · rfl
      · exact absurd (ea.symm.trans address) (taken hk old' (el.symm.trans line))
      · exact absurd (ea.trans address) (taken hm old (el.trans line))
      · exact table.addresses_differ m k g h old old' el ea
  have elsewhere : ∀ k, k ≠ ln → ∀ m, m ∈ s.onlineOf k → m ∈ u.onlineOf k := fun k hk m hm => by
    have hn : m ≠ n := by
      rintro rfl
      obtain ⟨g, hg, lg, og⟩ := State.mem_onlineOf.mp hm
      exact binds.not_online k g.maxRate ⟨g, hg, lg, og, rfl⟩
    exact (mem_onlineOf_congr (slots m hn)).mpr hm
  refine ⟨table', fun k y b hy hb m g hg lg ag => ?_, fun bounds k => ?_⟩
  · by_cases hk : k = ln
    · subst hk
      rw [enrol] at hy; cases hy
    · rw [lines k hk] at hy hb
      rcases split hg with ⟨rfl, rfl⟩ | ⟨-, old⟩
      · exact absurd (lg.symm.trans line) hk
      · exact offers k y b hy hb m g old lg ag
  · by_cases hk : k = ln
    · subst hk
      have count : (s.onlineOf k).length + 1 ≤ (u.onlineOf k).length := by
        have fresh : n ∉ s.onlineOf k := fun hn => by
          obtain ⟨g, hg, lg, og⟩ := State.mem_onlineOf.mp hn
          exact binds.not_online k g.maxRate ⟨g, hg, lg, og, rfl⟩
        have sub : n :: s.onlineOf k ⊆ u.onlineOf k := by
          intro m hm
          by_cases hn : m = n
          · subst hn; exact State.mem_onlineOf.mpr ⟨f, new, line, online⟩
          · exact (mem_onlineOf_congr (slots m hn)).mpr ((List.mem_cons.mp hm).resolve_left hn)
        exact (List.subperm_of_subset (List.nodup_cons.mpr ⟨fresh, s.nodup_onlineOf k⟩) sub).length_le
      have counted := ((bounds k).2 assigns.operation).1
      have fits := table'.onlineOf_length k
      have bound : (u.line k).enrol.bound = (s.line k).enrol.bound + 1 := by rw [enrol]; rfl
      refine ⟨by omega, fun _ => ⟨by omega, fun h => ?_, fun y hy served => ?_⟩⟩
      · rw [enrol] at h; cases h
      · rw [exchange] at hy
        rw [assigns.unserved y hy] at served; cases served
    · rw [lines k hk]
      obtain ⟨fits, counted⟩ := bounds k
      refine ⟨fits, fun operation => ?_⟩
      obtain ⟨bound, rest⟩ := counted operation
      exact ⟨bound.trans (onlineOf_length_le (elsewhere k hk)), rest⟩

theorem Caps.inRange_iff {c : Caps} : c.inRange = true ↔
    3 ≤ c.emitters ∧ c.emitters ≤ 5 ∧ 1 ≤ c.panSpeed ∧ c.panSpeed ≤ 4095 ∧ 1 ≤ c.tiltSpeed ∧ c.tiltSpeed ≤ 4095 := by
  unfold Caps.inRange; rw [decide_eq_true_eq]

theorem Caps.fixture_inRange {c : Caps} (h : c.inRange = true) {a : Nat} (range : 1 ≤ a ∧ a ≤ 32) (x : BitVec 40)
    (ln : LineNo) (index : Option (Fin 16)) (last : Option LastSent) (now : Stamp) :
    (c.fixture x ln a index last now).InRange := by
  obtain ⟨e1, e2, p1, p2, t1, t2⟩ := Caps.inRange_iff.mp h
  exact ⟨range, ⟨e1, e2⟩, ⟨p1, p2⟩, ⟨t1, t2⟩, Nat.zero_le _, fun _ => ⟨Nat.zero_le _, rfl⟩⟩

theorem State.bindInto_lineWork (s : State) (n : SlotNo) (ln : LineNo) (x : BitVec 40) (a : Nat) (c : Caps) (b : Bool) :
    LineWork s (s.bindInto n ln x a c b) := by
  obtain ⟨frame, -, slots⟩ := s.bindInto_frame n ln x a c b
  have told := s.bindInto_told n ln x a c b
  have slot := s.bindInto_slot n ln x a c b
  generalize s.bindInto n ln x a c b = u at frame slots told slot
  refine ⟨by rw [frame], by rw [frame], by rw [frame], by rw [frame], fun m => ?_, fun m g y hy => ?_,
    fun l => by rw [told.hear l]⟩
  · by_cases hm : m = n
    · subst hm; rw [slot]
    · rw [slots m hm]
  · by_cases hm : m = n
    · subst hm; rw [slot] at hy; exact hy
    · rwa [slots m hm] at hy

theorem State.bindOn_event {n : SlotNo} {x : BitVec 40} (binds : s.Binds n x) (ln : LineNo) (a : Nat) {c : Caps}
    (range : c.inRange = true) (b : Bool) :
    LineEvent ((s.line ln).Assigns x a) s (s.bindOn ln n x a c b) := by
  obtain ⟨frame, -, slots⟩ := s.bindInto_frame n ln x a c b
  have work := s.bindInto_lineWork n ln x a c b
  have slot := s.bindInto_slot n ln x a c b
  unfold State.bindOn
  refine LineEvent.trans ?_ (State.endExchange_event _ ln).always
  generalize s.bindInto n ln x a c b = u at frame slots work slot
  have line : ∀ k, u.line k = s.line k := fun k => by unfold State.line; rw [frame]
  have fixture := congrArg Slot.fixture slot
  dsimp only at fixture
  refine ⟨(work.trans (u.recompute_work ln)).trans (State.mapEnrol_work _ ln _), fun h => ?_, fun assigns => ?_⟩
  · refine State.RatesSound.setLine (h.recompute fun k hk => ?_) rfl rfl
    refine .of_slot (n := n) (line k) (fun m hm => by rw [slots m hm]) (binds.not_online k) ?_
    rintro r ⟨g, hg, lg, -⟩
    rw [fixture] at hg; cases hg
    exact hk lg.symm
  · refine State.bound_tableWork binds assigns fixture rfl rfl rfl rfl (Caps.fixture_inRange range assigns.range ..)
      (fun m hm => by exact congrArg Slot.fixture (slots m hm)) (fun k hk => ?_) ?_ ?_
    · rw [State.mapEnrol, State.setLine_line_ne _ _ hk, State.recompute, State.setLine_line_ne _ _ hk, line]
    · rw [State.mapEnrol, State.setLine_line_self, State.recompute, State.setLine_line_self, line]
    · rw [State.mapEnrol, State.setLine_line_self, State.recompute, State.setLine_line_self, line]

/-- R21: the slot that a bind request is answered with. -/
theorem State.bindAnswer_binds {ln : LineNo} {x : BitVec 40} {n : SlotNo}
    (h : s.bindAnswer ln x = .returning n ∨ s.bindAnswer ln x = .new n) : s.Binds n x := by
  unfold State.bindAnswer at h
  split at h
  · rename_i m found
    obtain ⟨f, hf, id⟩ := State.slotOfId_spec found
    split at h
    · rcases h with h | h <;> cases h
    · rename_i off
      split at h
      · rcases h with h | h <;> cases h
        refine .inl ⟨f, hf, id, Bool.eq_false_iff.mpr fun online => off (Slot.state_online.mpr ⟨f, hf, online⟩)⟩
      · rcases h with h | h <;> cases h
  · rename_i unheld
    split at h
    · rcases h with h | h <;> cases h
    · rename_i m found
      split at h
      · rcases h with h | h <;> cases h
        have free : (s.slot n).state = .free := by simpa using List.find?_some found
        exact .inr ⟨Slot.state_free.mp free, State.slotOfId_none.mp unheld⟩
      · rcases h with h | h <;> cases h

theorem State.receiveCaps_event (s : State) (ln : LineNo) (x : BitVec 40) (a : Nat) {c : Caps}
    (range : c.inRange = true) : LineEvent ((s.line ln).Assigns x a) s (s.receiveCaps ln x a c) := by
  unfold State.receiveCaps
  split
  · exact State.bindOn_event (State.bindAnswer_binds (.inl ‹_›)) ln a range true
  · exact State.bindOn_event (State.bindAnswer_binds (.inr ‹_›)) ln a range false
  · exact (s.refuseBinding_event ln a .duplicateId).always
  · exact (s.refuseBinding_event ln a .tableFull).always

/-- R43: what a CAPS that is judged good declares is in range. -/
theorem judgeCaps_inRange {a : Nat} {reply : List RxChar} {c : Caps} (h : judgeCaps a reply = some c) :
    c.inRange = true := by
  unfold judgeCaps at h
  split at h
  · split at h
    · split at h
      · cases h
      · dsimp only at h
        split at h
        · cases h; assumption
        · cases h
    · cases h
  · cases h

theorem State.openAssign_eq_some {ln : LineNo} {x : Exchange} {u : BitVec 40} {a : Nat} :
    s.openAssign ln = some (x, u, a) ↔
      (s.line ln).exchange = some x ∧ x.frame = .assign u a ∧ x.phase = .window := by
  unfold State.openAssign
  cases (s.line ln).exchange with
  | none => simp
  | some y =>
    dsimp only
    constructor
    · intro h
      split at h
      · rename_i frame
        split at h
        · cases h; exact ⟨rfl, frame, ‹_›⟩
        · cases h
      · cases h
    · rintro ⟨hy, frame, phase⟩
      cases hy
      rw [frame]
      exact if_pos phase

/-! ### The pick (R143 to R146) -/

theorem State.pickSlot_spec {ln : LineNo} {k : SlotClass} {n : SlotNo} (h : s.pickSlot ln = some (k, n)) :
    ∃ f, (s.slot n).fixture = some f ∧ f.line = ln ∧ s.memberOf n f k = true := by
  obtain ⟨j, -, hj⟩ := List.exists_of_findSome?_eq_some h
  obtain ⟨y, longest, e⟩ := Option.map_eq_some_iff.mp hj
  cases e
  obtain ⟨f, hf, line, member, -⟩ := State.mem_members.mp (longestWaiting_spec longest).1
  exact ⟨f, hf, line, member⟩

theorem State.startPoll_event {ln : LineNo} {n : SlotNo} {f : Fixture} (bound : (s.slot n).fixture = some f)
    (missing : f.online = false) :
    LineEvent ((s.line ln).enrol.operation = .none) s (s.startPoll ln n f) := by
  have polled : LineEvent True s
      (s.setSlot n { s.slot n with fixture := some { f with pollTime := some s.stampNow } }) :=
    s.setSlot_event n bound rfl
      ⟨rfl, rfl, rfl, fun h => { h with online_misses := fun e => by rw [missing] at e; cases e }⟩ rfl rfl
  refine (polled.trans (State.setLine_event_same _ ln)).always.trans
    ((State.beginExchange_event _ ln _ _).mono fun none => .inr ?_)
  rw [State.setLine_line_self]
  exact none

/-- R121, R146: the fixture as a build leaves it. -/
def State.builtFixture (s : State) (n : SlotNo) (f : Fixture) : Fixture :=
  { (if s.safety = .clear then f.withReference (s.buildAim n f).pan (s.buildAim n f).tilt s.stampNow else f) with
    lastSent := some { pan := (s.buildAim n f).pan, tilt := (s.buildAim n f).tilt, levels := (s.buildColour n f).1
                       time := s.stampNow } }

theorem State.builtFixture_follows (s : State) (n : SlotNo) (f : Fixture) :
    f.Follows (s.builtFixture n f) ∧ (s.builtFixture n f).online = f.online ∧
      (s.builtFixture n f).maxRate = f.maxRate := by
  unfold State.builtFixture
  split <;> exact ⟨⟨rfl, rfl, rfl, fun h => { h with }⟩, rfl, rfl⟩

/-- An evaluation removes records that are spent, and nothing else of a slot. -/
theorem State.evaluated_slot (s : State) (n : SlotNo) (g : Group) (m : SlotNo) :
    (s.evaluated n g).slot m =
      if m = n then { s.slot n with fades := (s.slot n).fades.set g (s.runningFade n g) } else s.slot m := by
  unfold State.evaluated State.setFade; rw [State.setSlot_slot]

theorem State.evaluatedAll_slot (s : State) (n m : SlotNo) :
    (s.evaluatedAll n).slot m =
      if m = n then
        { s.slot n with fades := { aim := s.runningFade n .aim, colour := s.runningFade n .colour,
                                   level := s.runningFade n .level } }
      else s.slot m := by
  unfold State.evaluatedAll
  simp only [State.evaluated_slot, State.evaluated_runningFade]
  split <;> rfl

theorem State.startSet_event {ln : LineNo} {n : SlotNo} {f : Fixture} (bound : (s.slot n).fixture = some f) :
    LineEvent ((s.line ln).enrol.operation = .none) s (s.startSet ln n f) := by
  obtain ⟨follows, online, rate⟩ := s.builtFixture_follows n f
  have slot : (s.evaluatedAll n).slot n = _ := (s.evaluatedAll_slot n n).trans (if_pos rfl)
  have built : LineEvent True (s.evaluatedAll n)
      ((s.evaluatedAll n).setSlot n { s.builtSlot n f with fades := ((s.evaluatedAll n).slot n).fades }) :=
    State.setSlot_event _ n (by rw [slot]; exact bound) rfl follows online rate (by rw [slot]; rfl)
  refine (((s.evaluatedAll_event n).trans built).trans (State.setLine_event_same _ ln)).always.trans
    ((State.beginExchange_event _ ln _ _).mono fun none => .inr ?_)
  rw [State.setLine_line_self]
  exact none

theorem State.startJoining_event (s : State) (ln : LineNo) : LineEvent True s (s.startJoining ln) :=
  LineEvent.trans (s.setLine_event ln fun _ => .of_start rfl rfl)
    ((State.beginExchange_event _ ln .call .r250).mono fun _ => .inl rfl)

theorem State.pick_event (s : State) (ln : LineNo) : LineEvent (s.line ln).Sound s (s.pick ln) := by
  unfold State.pick
  refine .ite (fun may => ?_) fun _ => .refl
  have idle : (s.line ln).Sound → (s.line ln).enrol.operation = .none := fun sound => by
    simp only [State.mayPick, Bool.and_eq_true, decide_eq_true_eq] at may
    exact (sound.resting (.inr may.1.1)).2
  split
  · rename_i k n picked
    obtain ⟨g, hg, -, member⟩ := State.pickSlot_spec picked
    split
    · exact .refl
    · rename_i f bound
      obtain rfl : f = g := Option.some.inj (bound.symm.trans hg)
      refine .ite (fun recover => ?_) fun _ => (State.startSet_event bound).mono idle
      subst recover
      have missing : f.online = false := by
        simp only [State.memberOf, Bool.and_eq_true, Bool.not_eq_true'] at member
        exact member.1
      exact (State.startPoll_event bound missing).mono idle
  · exact .ite (fun _ => (s.startJoining_event ln).always) fun _ => .refl

/-! ### Setup requests (R29, R32, R38, R136, R147, R148) -/

theorem State.disable_event (s : State) (ln : LineNo) :
    LineEvent ((s.line ln).seq = .idle → (s.line ln).enrol.operation = .none) s (s.disable ln) := by
  unfold State.disable
  refine .ite (fun _ => .refl) fun _ => .ite (fun idle => (s.goOff_event ln).mono fun rest => rest idle) fun _ => ?_
  exact .ite (fun _ => (s.abandonAndGoOff_event ln).always) fun _ => (s.setLine_event_same ln).always

theorem State.enable_event (s : State) (ln : LineNo) : LineEvent True s (s.enable ln) := by
  unfold State.enable
  exact .ite (fun _ => s.setLine_event ln fun _ => .of_start rfl rfl) fun _ => s.setLine_event_same ln

theorem State.takeSetLine_event (s : State) (l : Link) (x : LineSettings) (f : Frame) :
    LineEvent (s.line x.line).Sound s (s.takeSetLine l x f) := by
  have rated : LineEvent True s
      ((s.setLine x.line ((s.line x.line).withSettings x.enabled x.rate x.replyWindow x.refreshPeriod
        x.joinPeriod)).recompute x.line) := by
    refine ⟨(s.setLine_work _ _).trans (State.recompute_work _ _), fun h => h.recompute fun k hk => ?_, fun _ => ?_⟩
    · exact .of_fixtures (by rw [State.setLine_line_ne _ _ hk]) (by rw [State.setLine_line_ne _ _ hk]) fun _ => rfl
    · rw [State.recompute, State.setLine_line_self, State.setLine_setLine]
      exact State.setLine_tableWork (.of_enrol rfl fun y hy served => ⟨y, hy, served⟩)
  unfold State.takeSetLine
  refine LineEvent.trans (rated.always.trans ?_) (State.answer_event _ l f _ _).always
  refine .ite (fun _ => (State.enable_event _ _).always) fun _ => (State.disable_event _ _).mono fun sound idle => ?_
  rw [State.recompute, State.setLine_line_self, State.setLine_line_self] at idle ⊢
  exact (sound.resting (.inr idle)).2

theorem State.beginEnrolment_event (s : State) (ln : LineNo) (o : Operation) (b : SubState) :
    LineEvent True s (s.beginEnrolment ln o b) :=
  (((s.putCondition_event ln _ _).trans (State.putCondition_event _ ln _ _)).trans
    (State.putCondition_event _ ln _ _)).trans (State.setLine_event _ ln fun _ => .of_start rfl rfl)

theorem State.refuse_event (s : State) (l : Link) (f : Frame) (x : Status) : LineEvent True s (s.refuse l f x) :=
  s.answer_event l f x .none

theorem State.takeEnrol_event (s : State) (l : Link) (ln : LineNo) (o : Operation) (b : SubState) (f : Frame) :
    LineEvent True s (s.takeEnrol l ln o b f) :=
  .ite (fun _ => s.refuse_event l f _) fun _ => .ite (fun _ => s.refuse_event l f _) fun _ =>
    (s.beginEnrolment_event ln o b).trans (State.answer_event _ l f _ _)

theorem State.setTypeEntry_event (s : State) (k : Fin 16) (e : TypeEntry) : LineEvent True s (s.setTypeEntry k e) :=
  TableKept.lineEvent ⟨rfl, fun _ => rfl, rfl, rfl⟩ (s.setTypeEntry_work k e)

theorem Slot.retyped_of_free {x : Slot} (h : x.fixture = none) (code : BitVec 16) (k : Fin 16) :
    x.retyped code k = x := by
  simp only [Slot.retyped, h]

/-- R30: a bound slot whose index is then the entry. -/
theorem Slot.retyped_of_bound {x : Slot} {f : Fixture} (h : x.fixture = some f) (code : BitVec 16) (k : Fin 16) :
    x.retyped code k =
      if f.typeIndex = some k ∨ (f.typeCode = code ∧ f.typeIndex = none) then
        { x with fixture := some { f with typeIndex := some k }, flags := { x.flags with changed := true } }
      else x := by
  simp only [Slot.retyped, h]
  by_cases taken : f.typeCode = code ∧ f.typeIndex = none
  · simp [taken]
  · by_cases own : f.typeIndex = some k
    · simp [own]
    · simp [taken, own]

/-- R30: a slot that takes an entry's number stays bound as it was. -/
theorem State.retyped_event (s : State) (n : SlotNo) (code : BitVec 16) (k : Fin 16) :
    LineEvent True s (s.setSlot n ((s.slot n).retyped code k)) := by
  cases bound : (s.slot n).fixture with
  | none => rw [Slot.retyped_of_free bound, State.setSlot_slot_back]; exact .refl
  | some f =>
    rw [Slot.retyped_of_bound bound]
    split
    · exact s.setSlot_event n bound rfl ⟨rfl, rfl, rfl, fun h => { h with }⟩ rfl rfl
    · rw [State.setSlot_slot_back]; exact .refl

theorem State.writeType_event (s : State) (k : Fin 16) (code : BitVec 16) (m : Matrix) :
    LineEvent True s (s.writeType k code m) :=
  (s.setTypeEntry_event k _).trans (.foldl (fun s n => s.retyped_event n code k) allSlots _)

theorem State.takeSetType_event (s : State) (l : Link) (code : BitVec 16) (m : Matrix) (f : Frame) :
    LineEvent True s (s.takeSetType l code m f) := by
  unfold State.takeSetType
  split
  · exact (s.writeType_event _ code m).trans (State.answer_event _ l f _ _)
  · split
    · exact (s.writeType_event _ code m).trans (State.answer_event _ l f _ _)
    · exact s.refuse_event l f _

/-- R32: only a MISSING slot is freed. -/
theorem State.forgetSlot_event (s : State) (n : SlotNo) : LineEvent True s (s.forgetSlot n) := by
  unfold State.forgetSlot
  refine .ite (fun missing => ?_) fun _ => .refl
  obtain ⟨f, bound, off⟩ := Slot.state_missing.mp missing
  have offline : ∀ ln r, ¬s.OnlineAt ln n r := by
    rintro ln r ⟨g, hg, -, online, -⟩
    rw [bound] at hg; cases hg
    rw [off] at online; cases online
  have gone : ∀ {x : Slot}, x.fixture = none → ((s.setSlot n x).slot n).fixture = none := fun h => by
    rw [State.setSlot_slot_self, h]
  refine ⟨s.setSlot_lineWork n rfl fun _ _ => id, fun h => h.of_lines fun ln => .inl ?_, fun _ => ?_⟩
  · refine .of_slot (n := n) rfl (fun m hm => by rw [State.setSlot_slot_ne _ _ hm]) (offline ln) ?_
    rintro r ⟨g, hg, -⟩
    rw [gone rfl] at hg; cases hg
  · refine .of_follows (fun m g hg => ?_) (fun _ => .refl _) fun _ ln _ _ m hm => ?_
    · by_cases hm : m = n
      · subst hm; rw [gone rfl] at hg; cases hg
      · rw [State.setSlot_slot_ne _ _ hm] at hg
        exact ⟨g, hg, .refl g⟩
    · have hn : m ≠ n := by
        rintro rfl
        obtain ⟨g, hg, lg, og⟩ := State.mem_onlineOf.mp hm
        exact offline ln g.maxRate ⟨g, hg, lg, og, rfl⟩
      exact (mem_onlineOf_congr (by rw [State.setSlot_slot_ne _ _ hn])).mpr hm

theorem State.takeForget_event (s : State) (l : Link) (slots : List SlotNo) (f : Frame) :
    LineEvent True s (s.takeForget l slots f) :=
  .ite (fun _ => s.refuse_event l f _) fun _ =>
    LineEvent.trans (.foldl (fun s n => s.forgetSlot_event n) slots s) (State.answer_event _ l f _ _)

/-! ### Old stamps (R106) -/

/-- A change of a bound fixture that leaves its binding, its rate and whether it is ONLINE. -/
theorem State.mapFixture_event (s : State) (n : SlotNo) {change : Fixture → Fixture}
    (follows : ∀ f : Fixture, f.Follows (change f)) (online : ∀ f, (change f).online = f.online := by intro; rfl)
    (rate : ∀ f, (change f).maxRate = f.maxRate := by intro; rfl) : LineEvent True s (s.mapFixture n change) := by
  unfold State.mapFixture
  cases bound : (s.slot n).fixture with
  | none =>
    have back : { s.slot n with fixture := none } = s.slot n := by rw [← bound]
    rw [Option.map_none, back, State.setSlot_slot_back]
    exact .refl
  | some f => exact s.setSlot_event n bound rfl (follows f) (online f) (rate f)

end

end Sys2Proof.Machine
end

section
/-! PROOF. Every command keeps the Fixture Table, the offers and bound counts, the effective rates, the roles, the safety
state and the ranges of the values (O57, O59). -/

namespace Sys2Proof.Machine

/-- What every step keeps of the records of O57 and O59. -/
structure KeepsRecords (s t : State) : Prop where
  table : s.LinesSound → TableWork s t
  rates : s.RatesSound → t.RatesSound
  roles : s.RolesSound → t.RolesSound
  safety : s.SafetySound → t.SafetySound
  values : s.ValuesApart → t.ValuesApart

section
variable {s t : State}

theorem KeepsRecords.refl (s : State) : KeepsRecords s s := ⟨fun _ => .refl s, id, id, id, id⟩

theorem KeepsRecords.trans {u : State} (h : KeepsRecords s t) (lines : s.LinesSound → t.LinesSound)
    (k : KeepsRecords t u) : KeepsRecords s u :=
  ⟨fun sound => (h.table sound).trans (k.table (lines sound)), k.rates ∘ h.rates, k.roles ∘ h.roles,
    k.safety ∘ h.safety, k.values ∘ h.values⟩

theorem KeepsRecords.ite {u : State} {c : Prop} [Decidable c] (ht : c → KeepsRecords s t) (hu : ¬c → KeepsRecords s u) :
    KeepsRecords s (if c then t else u) := by
  split
  · exact ht ‹_›
  · exact hu ‹_›

theorem PairWork.keepsRecords (h : PairWork s t) : KeepsRecords s t :=
  ⟨fun _ => h.kept.tableWork, h.kept.ratesSound, h.roles, h.kept.safetySound, h.values⟩

theorem LineEvent.keepsRecords {P : Prop} (h : LineEvent P s t) (hp : s.LinesSound → P) : KeepsRecords s t :=
  ⟨fun sound => h.table (hp sound), h.rates, h.work.roles, h.work.safetySound, h.work.values⟩

theorem LineEvent.keepsRecords_always (h : LineEvent True s t) : KeepsRecords s t := h.keepsRecords fun _ => trivial

theorem LineEvent.keepsRecords_running {ln : LineNo} (h : LineEvent (s.line ln).Sound s t) (running : s.inReset = false) :
    KeepsRecords s t := h.keepsRecords fun sound => sound running ln

/-- A change of the time, the queue, the pins or whether the part is in reset, and of nothing else. -/
theorem KeepsRecords.of_clock (slots : t.slots = s.slots := by rfl) (lines : t.lines = s.lines := by rfl)
    (claims : t.claims = s.claims := by rfl) (links : t.links = s.links := by rfl) (pair : t.pair = s.pair := by rfl)
    (safety : t.safety = s.safety := by rfl) (asserted : t.safeAsserted = s.safeAsserted := by rfl) :
    KeepsRecords s t := by
  refine PairWork.keepsRecords ⟨⟨lines, fun n => by unfold State.slot; rw [slots], safety, asserted⟩, fun sound => ?_,
    fun h => h.of_links slots claims pair fun l => by unfold State.link; rw [links]; exact h.values.loss_fits l⟩
  unfold State.RolesSound
  rw [claims, pair]
  exact sound

theorem SafetyWork.keepsRecords (h : SafetyWork s t) (safety : s.SafetySound → t.SafetySound) : KeepsRecords s t :=
  ⟨fun _ => .of_lines h.fixtures fun ln => by unfold State.line; rw [h.lines]; exact .refl _,
    fun sound => sound.of_lines fun ln => .inl
      (.of_fixtures (by unfold State.line; rw [h.lines]) (by unfold State.line; rw [h.lines]) h.fixtures),
    h.roles, safety, h.values⟩

/-! ### Rows -/

/-- A command that goes by in reset, and otherwise has an effect that keeps the records, keeps them. -/
theorem keepsRecords_of_running {effect : State → State} (h : (.next (s.whenRunning effect) : Result) = .next t)
    (he : s.inReset = false → KeepsRecords s (effect s)) : KeepsRecords s t := by
  cases h
  exact .ite (fun _ => .refl s) fun running => he (Bool.eq_false_iff.mpr running)

/-- A request row keeps the records when every taking of its request keeps them. -/
theorem keepsRecords_of_taking {l : Link} {take : State → Frame → Request → Option State}
    (h : (.next (s.whenRunning fun s => s.takeInHand l (take s)) : Result) = .next t)
    (ht : s.inReset = false → ∀ f r u, f.request = some r → take s f r = some u → KeepsRecords s u) :
    KeepsRecords s t := by
  refine keepsRecords_of_running h fun running => ?_
  unfold State.takeInHand
  split
  · exact .refl s
  · rename_i f _
    split
    · exact .refl s
    · rename_i r asked
      cases taken : take s f r with
      | none => exact .refl s
      | some u => exact ht running f r u asked taken

theorem State.refuse_keepsRecords (s : State) (l : Link) (f : Frame) (x : Status) : KeepsRecords s (s.refuse l f x) :=
  (s.answer_pairWork l f x .none).keepsRecords

theorem State.withSlots_keepsRecords {l : Link} {f : Frame} {set : SlotSet} {go : List SlotNo → State}
    (h : ∀ slots, KeepsRecords s (go slots)) : KeepsRecords s (s.withSlots l f set go) := by
  unfold State.withSlots
  split
  · exact s.refuse_keepsRecords l f _
  · exact h _

theorem State.withPermission_keepsRecords {l : Link} {f : Frame} {b : Bool} {go : State} (h : KeepsRecords s go) :
    KeepsRecords s (s.withPermission l f b go) := .ite (fun _ => h) fun _ => s.refuse_keepsRecords l f _

/-- What is done and then answered. -/
theorem PairWork.answered (h : PairWork s t) (l : Link) (f : Frame) (x : Status) (d : AnswerData) :
    KeepsRecords s (t.answer l f x d) := (h.trans (t.answer_pairWork l f x d)).keepsRecords

end

section
variable (s : State)

/-! ### Takings on claims (R62, R65, R94 to R96, R102, R103, R75) -/

theorem State.takeSeize_keepsRecords (l : Link) (g : Group) (slots : List SlotNo) (f : Frame) :
    KeepsRecords s (s.takeSeize l g slots f) := by
  have seized : PairWork s ((s.seizeSlots l g slots).1.raiseDisplaced l g (s.seizeSlots l g slots).2) :=
    ((s.seizeSlots_work l g slots).trans (State.raiseDisplaced_work _ l g _)).pairWork fun h =>
      (h.seizeSlots l g slots).raiseDisplaced l g _
  exact .ite (fun _ => s.refuse_keepsRecords l f _) fun _ => seized.answered l f _ _

theorem State.takeRelease_keepsRecords (l : Link) (g : Group) (slots : List SlotNo) (fade : Nat) (f : Frame) :
    KeepsRecords s (s.takeRelease l g slots fade f) := by
  have released : PairWork s (s.releaseClaims (s.claimsIn l g slots) (clampTime fade) .release) :=
    (s.releaseClaims_work _ _ _).pairWork fun h => h.releaseClaims _ (clampTime_le fade) _
  exact .ite (fun _ => s.refuse_keepsRecords l f _) fun _ => released.answered l f _ _

/-- R92: the steps of a request have as many components as its group. -/
theorem State.stepOrRefuse_keepsRecords (q : StepRequest) (slots : List SlotNo) {steps : List StepFields}
    (fits : ∀ x ∈ steps, x.Fits q.group) (f : Frame) : KeepsRecords s (s.stepOrRefuse q slots steps f) := by
  unfold State.stepOrRefuse
  split
  · exact s.refuse_keepsRecords _ f _
  · have taken : PairWork s (s.takeStep q slots steps) :=
      (s.takeStep_work q slots steps).pairWork fun h => h.takeStep q slots fits
    exact taken.answered q.link f _ _

theorem State.takeHalt_keepsRecords (l : Link) (g : Group) (slots : List SlotNo) (f : Frame) :
    KeepsRecords s (s.takeHalt l g slots f) := by
  have halted : PairWork s ((s.claimsIn l g slots).foldl State.haltClaim s).settleSteps :=
    ((ClaimWork.foldl (fun s c => s.haltClaim_work c) _ s).trans (State.settleSteps_work _)).pairWork fun h =>
      (h.haltClaims fun _ => State.claimsIn_mem).settleSteps
  exact .ite (fun _ => s.refuse_keepsRecords l f _) fun _ => halted.answered l f _ _

theorem State.takeSetMode_keepsRecords (l : Link) (g : Group) (slots : List SlotNo) (mode : Mode) (low : Nat) (f : Frame) :
    KeepsRecords s (s.takeSetMode l g slots mode low f) := by
  have set : PairWork s ((s.claimsIn l g slots).foldl (fun s c => s.setModeOf mode low c) s) :=
    .foldl (fun s c => (s.setModeOf_work mode low c).pairWork fun h => h.setModeOf mode low c) _ s
  exact .ite (fun _ => s.refuse_keepsRecords l f _) fun _ => set.answered l f _ _

/-! ### Takings on the pair and the safety state (R79, R82 to R84, R156) -/

theorem State.takeAsk_keepsRecords (l : Link) (f : Frame) : KeepsRecords s (s.takeAsk l f) :=
  .ite (fun _ => s.refuse_keepsRecords l f _) fun _ =>
    ((s.setAsk_pairWork true).trans (State.raiseTo_pairWork _ _ _)).answered l f _ _

theorem State.takeDecline_keepsRecords (l : Link) (f : Frame) : KeepsRecords s (s.takeDecline l f) :=
  PairWork.answered (.ite ((s.setAsk_pairWork false).trans (State.raiseTo_pairWork _ _ _)) (.refl s)) l f _ _

theorem State.takeOverride_keepsRecords (l : Link) (on : Bool) (fade : Nat) (f : Frame) :
    KeepsRecords s (s.takeOverride l on fade f) :=
  PairWork.answered (.ite (.refl s) (s.changeOverride_pairWork on (fun _ => clampTime_le fade) _)) l f _ _

theorem State.takeSafeClear_keepsRecords (l : Link) (fade : Nat) (f : Frame) :
    KeepsRecords s (s.takeSafeClear l fade f) := by
  unfold State.takeSafeClear
  split
  · exact s.refuse_keepsRecords l f _
  · exact (PairWork.refl s).answered l f _ _
  · rename_i latched
    have answered := (s.clearSafety (clampTime fade)).answer_pairWork l f (takenStatus (outOfRange fade)) .none
    exact ((s.clearSafety_work (clampTime_le fade)).trans answered).keepsRecords fun sound =>
      answered.kept.safetySound (State.clearSafety_sound sound latched _)

/-! ### Reset, stamps and late characters (R106, R141, R161) -/

theorem State.enterReset_keepsRecords : KeepsRecords s s.enterReset := by
  have line : ∀ ln, s.enterReset.line ln = { s.line ln with exchange := none } := fun ln => by
    simp [State.enterReset, State.line]
  have loss : ∀ l, (s.enterReset.link l).lossFade = (s.link l).lossFade := fun l => by
    simp [State.enterReset, State.link]
  refine ⟨fun _ => .of_lines (fun _ => rfl) fun ln => ?_, fun sound => sound.of_lines fun ln => .inl ?_, id, id,
    fun h => h.of_links rfl rfl rfl fun l => (loss l).symm ▸ h.values.loss_fits l⟩
  · rw [line]; exact .of_enrol rfl fun x hx _ => nomatch hx
  · exact .of_fixtures (by rw [line]) (by rw [line]) fun _ => rfl

/-- R154: the power-on state has SAFE_N's filtered level and the safety state that goes with it. -/
theorem State.powerUp_safetySound : s.powerUp.SafetySound := by
  unfold State.SafetySound State.powerUp
  cases s.safeNHigh with
  | true => exact iff_of_false (fun e => nomatch e) fun e => nomatch e
  | false => exact iff_of_true rfl rfl

theorem State.powerUp_keepsRecords : KeepsRecords s s.powerUp where
  table _ _ _ := by
    obtain ⟨table, offers, bounds⟩ := TableWork.of_lines (s := .reset) (t := s.powerUp) (fun _ => rfl) (fun _ => .refl _)
      State.reset_tableSound State.reset_offersSound
    exact ⟨table, offers, fun _ => bounds State.reset_boundsSound⟩
  rates _ := State.reset_ratesSound
  roles _ := resetIsSound.roles
  safety _ := s.powerUp_safetySound
  values _ := by
    have reset : State.reset.ValuesApart := ⟨List.nodup_nil, State.reset_valuesSound⟩
    exact reset.of_links rfl rfl rfl reset.values.loss_fits

/-- R106: a stamp that becomes old is a stamp still, and a record keeps its value and its duration. -/
theorem State.ageStamp_keepsRecords (which : StampRef) : KeepsRecords s (s.ageStamp which) := by
  cases which with
  | crossfade n g =>
    refine ((s.setFade_work n g _).pairWork fun h => h.setFade n g fun x hx => ?_).keepsRecords
    obtain ⟨y, hy, rfl⟩ := Option.map_eq_some_iff.mp hx
    obtain ⟨value, duration⟩ := h.values.fade_fits n g y hy
    exact ⟨value, duration⟩
  | lastSent n => exact (s.mapFixture_event n fun _ => by exact ⟨rfl, rfl, rfl, fun h => { h with }⟩).keepsRecords_always
  | poll n =>
    refine (s.mapFixture_event n fun _ => ?_).keepsRecords_always
    refine ⟨rfl, rfl, rfl, fun h => { h with online_misses := fun online => ?_ }⟩
    obtain ⟨misses, poll⟩ := h.online_misses online
    exact ⟨misses, congrArg (Option.map _) poll⟩
  | lastCall ln => exact (s.setLine_event_same ln).keepsRecords_always
  | follower n => exact (s.mapFixture_event n fun _ => by exact ⟨rfl, rfl, rfl, fun h => { h with }⟩).keepsRecords_always

end

/-! ### Every command -/

theorem exec_keepsRecords (c : Instr) (s t : State) (h : exec c s = .next t) : KeepsRecords s t := by
  cases c with
  | powerOnReset cause =>
    cases h
    cases cause with
    | supplyRise => exact s.enterReset_keepsRecords.trans (fun _ running => nomatch running) .of_clock
    | resetNLow => exact .ite (fun _ => s.enterReset_keepsRecords) fun _ => .refl s
  | leaveReset => cases h; exact .ite (fun _ => s.powerUp_keepsRecords) fun _ => .refl s
  | resetNChange high =>
    cases h
    exact .ite (fun _ => .refl s) fun _ => .of_clock
  | safeNChange high =>
    cases h
    exact .ite (fun _ => .refl s) fun _ => .of_clock
  | safetyAssertion =>
    exact keepsRecords_of_running h fun _ =>
      .ite (fun _ => s.assertSafety_work.keepsRecords fun _ => s.assertSafety_sound) fun _ => .refl s
  | safetyRelease =>
    exact keepsRecords_of_running h fun _ =>
      .ite (fun _ => s.releaseSafety_work.keepsRecords fun _ => s.releaseSafety_sound) fun _ => .refl s
  | stampBecomesOld which => exact keepsRecords_of_running h fun _ => s.ageStamp_keepsRecords which
  | frameArrival l chars =>
    refine keepsRecords_of_running h fun _ => ?_
    have cleared : PairWork s (s.setLink l { s.link l with assembler := Assembler.empty }) := s.setLink_pairWork l rfl
    dsimp only
    split
    · exact cleared.keepsRecords
    · exact (cleared.trans (State.arrive_pairWork _ l _)).keepsRecords
  | silenceTimeout l =>
    exact keepsRecords_of_running h fun _ => .ite (fun _ => (s.silence_pairWork l).keepsRecords) fun _ => .refl s
  | transmitStart l =>
    exact keepsRecords_of_running h fun _ => (s.setLink_pairWork l (LinkRec.beginFrame_lossFade _ _)).keepsRecords
  | transmitDone l =>
    exact keepsRecords_of_running h fun _ => (s.setLink_pairWork l (LinkRec.endFrame_lossFade _ _)).keepsRecords
  | unknownKind l =>
    refine keepsRecords_of_running h fun _ => ?_
    split
    · exact .refl s
    · split
      · exact s.refuse_keepsRecords l _ _
      · exact .refl s
  | seize l =>
    refine keepsRecords_of_taking h fun _ f r u _ e => ?_
    split at e <;> cases e
    exact State.withSlots_keepsRecords fun slots => s.takeSeize_keepsRecords l _ slots f
  | release l =>
    refine keepsRecords_of_taking h fun _ f r u _ e => ?_
    split at e <;> cases e
    exact State.withSlots_keepsRecords fun slots => s.takeRelease_keepsRecords l _ slots _ f
  | stepReplace l =>
    refine keepsRecords_of_taking h fun _ f r u asked e => ?_
    split at e <;> cases e
    obtain ⟨⟨-, -, -, -, fits⟩, -⟩ := (requestsAreReadAsWritten f _).mp asked
    exact State.withSlots_keepsRecords fun slots => s.stepOrRefuse_keepsRecords ⟨l, _, _, _, _⟩ slots fits f
  | stepAppend l =>
    refine keepsRecords_of_taking h fun _ f r u asked e => ?_
    split at e <;> cases e
    obtain ⟨⟨-, -, -, -, fits⟩, -⟩ := (requestsAreReadAsWritten f _).mp asked
    exact State.withSlots_keepsRecords fun slots => s.stepOrRefuse_keepsRecords ⟨l, _, _, _, _⟩ slots fits f
  | halt l =>
    refine keepsRecords_of_taking h fun _ f r u _ e => ?_
    split at e <;> cases e
    exact State.withSlots_keepsRecords fun slots => s.takeHalt_keepsRecords l _ slots f
  | setMode l =>
    refine keepsRecords_of_taking h fun _ f r u _ e => ?_
    split at e <;> cases e
    exact State.withSlots_keepsRecords fun slots => s.takeSetMode_keepsRecords l _ slots _ _ f
  | stepExpiry =>
    exact keepsRecords_of_running h fun _ => (s.retireDue_work.pairWork fun h => h.retireDue).keepsRecords
  | handoverAsk l =>
    refine keepsRecords_of_taking h fun _ f r u _ e => ?_
    split at e <;> cases e
    exact State.withPermission_keepsRecords (s.takeAsk_keepsRecords l f)
  | handoverDecline l =>
    refine keepsRecords_of_taking h fun _ f r u _ e => ?_
    split at e <;> cases e
    exact State.withPermission_keepsRecords (s.takeDecline_keepsRecords l f)
  | handoverGive l =>
    refine keepsRecords_of_taking h fun _ f r u _ e => ?_
    split at e <;> cases e
    exact State.withPermission_keepsRecords ((s.swap_pairWork (fun _ => clampTime_le _) .give).answered l f _ _)
  | overrideOn l =>
    refine keepsRecords_of_taking h fun _ f r u _ e => ?_
    split at e <;> cases e
    exact State.withPermission_keepsRecords (s.takeOverride_keepsRecords l _ _ f)
  | overrideOff l =>
    refine keepsRecords_of_taking h fun _ f r u _ e => ?_
    split at e <;> cases e
    exact State.withPermission_keepsRecords (s.takeOverride_keepsRecords l _ _ f)
  | setPair l =>
    refine keepsRecords_of_taking h fun _ f r u _ e => ?_
    split at e <;> cases e
    refine State.withPermission_keepsRecords (PairWork.answered ?_ l f _ _)
    exact s.setPair_pairWork (fun _ => rfl) fun _ => clampTime_le _
  | safeClear l =>
    refine keepsRecords_of_taking h fun _ f r u _ e => ?_
    split at e <;> cases e
    exact State.withPermission_keepsRecords (s.takeSafeClear_keepsRecords l _ f)
  | setLine l =>
    refine keepsRecords_of_taking h fun running f r u _ e => ?_
    split at e <;> cases e
    exact State.withPermission_keepsRecords ((s.takeSetLine_event l _ f).keepsRecords_running running)
  | enrolLineFull l =>
    refine keepsRecords_of_taking h fun _ f r u _ e => ?_
    split at e <;> cases e
    exact State.withPermission_keepsRecords (s.takeEnrol_event l _ _ _ f).keepsRecords_always
  | enrolLineJoin l =>
    refine keepsRecords_of_taking h fun _ f r u _ e => ?_
    split at e <;> cases e
    exact State.withPermission_keepsRecords (s.takeEnrol_event l _ _ _ f).keepsRecords_always
  | setType l =>
    refine keepsRecords_of_taking h fun _ f r u _ e => ?_
    split at e <;> cases e
    exact State.withPermission_keepsRecords (s.takeSetType_event l _ _ f).keepsRecords_always
  | forget l =>
    refine keepsRecords_of_taking h fun _ f r u _ e => ?_
    split at e <;> cases e
    exact State.withSlots_keepsRecords fun slots =>
      State.withPermission_keepsRecords (s.takeForget_event l slots f).keepsRecords_always
  | setLink l =>
    refine keepsRecords_of_taking h fun _ f r u _ e => ?_
    split at e <;> cases e
    exact State.withPermission_keepsRecords (s.takeSetLink_pairWork l _ _ _ f).keepsRecords
  | rigClear l =>
    refine keepsRecords_of_taking h fun _ f r u _ e => ?_
    split at e <;> cases e
    exact State.withPermission_keepsRecords ((s.clearRig_work.pairWork fun h => h.clearRig).answered l f _ _)
  | keep l =>
    refine keepsRecords_of_taking h fun _ f r u _ e => ?_
    split at e <;> cases e
    exact (PairWork.refl s).answered l f _ _
  | readSlot l =>
    refine keepsRecords_of_taking h fun _ f r u _ e => ?_
    split at e
    · split at e <;> cases e
      · exact s.refuse_keepsRecords l f _
      · exact ((s.evaluatedAll_event _).trans (State.answer_event _ l f _ _)).keepsRecords_always
    · cases e
  | readClaims l =>
    refine keepsRecords_of_taking h fun _ f r u _ e => ?_
    split at e
    · split at e <;> cases e
      · exact s.refuse_keepsRecords l f _
      · exact ((s.evaluated_event _ _).trans (State.answer_event _ l f _ _)).keepsRecords_always
    · cases e
  | readLine l =>
    refine keepsRecords_of_taking h fun _ f r u _ e => ?_
    split at e <;> cases e
    exact ((s.putCondition_event _ _ _).trans (State.answer_event _ l f _ _)).keepsRecords_always
  | readType l =>
    refine keepsRecords_of_taking h fun _ f r u _ e => ?_
    split at e <;> cases e
    exact (PairWork.refl s).answered l f _ _
  | readPart l =>
    refine keepsRecords_of_taking h fun _ f r u _ e => ?_
    split at e <;> cases e
    exact (PairWork.refl s).answered l f _ _
  | schedulerPick ln => exact keepsRecords_of_running h (s.pick_event ln).keepsRecords_running
  | enrolFrameStart ln => exact keepsRecords_of_running h fun _ => (s.startEnrolFrame_event ln).keepsRecords_always
  | lineFrameEnd ln => exact keepsRecords_of_running h fun _ => (s.endLineFrame_event ln).keepsRecords_always
  | replyEnd ln reply => exact keepsRecords_of_running h fun _ => (s.endReply_event ln reply).keepsRecords_always
  | replyWindowExpiry ln => exact keepsRecords_of_running h fun _ => (s.expireReply_event ln).keepsRecords_always
  | lateCharacters ln =>
    exact keepsRecords_of_running h fun _ =>
      .ite (fun _ => (s.setLine_event_same ln).keepsRecords_always) fun _ => .refl s
  | dropDone ln => exact keepsRecords_of_running h (s.endDrop_event ln).keepsRecords_running
  | callDone ln => exact keepsRecords_of_running h fun _ => (s.openArbitration_event ln).keepsRecords_always
  | arbitrationEnd ln samples => exact keepsRecords_of_running h (s.endArbitration_event ln samples).keepsRecords_running
  | assignDone ln => exact keepsRecords_of_running h fun _ => (s.endAssign_event ln).keepsRecords_always
  | capsReceived ln reply =>
    refine keepsRecords_of_running h fun running => ?_
    split
    · exact .refl s
    · rename_i x uid a opened
      obtain ⟨flight, frame, -⟩ := State.openAssign_eq_some.mp opened
      split
      · exact .refl s
      · rename_i c good
        refine .ite (fun _ => ?_) fun _ => .refl s
        exact (s.receiveCaps_event ln uid a (judgeCaps_inRange good)).keepsRecords fun sound =>
          (sound running ln).assigns flight frame
  | capsWindowExpiry ln =>
    refine keepsRecords_of_running h fun _ => ?_
    split
    · exact .refl s
    · exact .ite (fun _ => (s.capsFailed_event ln _).keepsRecords_always) fun _ => .refl s
  | capsFailure ln reply =>
    refine keepsRecords_of_running h fun _ => ?_
    split
    · exact .refl s
    · split
      · exact .refl s
      · exact .ite (fun _ => (s.capsFailed_event ln _).keepsRecords_always) fun _ => .refl s

/-- A step that takes no command keeps the records: neither the queue nor the time is one of them. -/
theorem step_keepsRecords (s t : State) (h : step s = .next t) : KeepsRecords s t := by
  unfold step at h
  split at h
  · rename_i c rest _
    exact KeepsRecords.trans (t := { s with pending := rest }) .of_clock id (exec_keepsRecords c _ t h)
  · cases h
    exact .of_clock

/-- Settles O57: no event of a line gives a slot a new binding but a binding itself, whose address the arbitration found
free, and every other operation leaves fixtures and lines as they were. -/
theorem tableStaysSound : Obligations.TableStaysSound := fun s t lines table offers h =>
  (step_keepsRecords s t h).table lines table offers

/-- Settles O59: each operation on claims, on the pair, on the lines and on the safety state keeps its promises. -/
theorem rolesRatesSafetyAndValuesStaySound : Obligations.RolesRatesSafetyAndValuesStaySound := fun s t h => by
  obtain ⟨-, rates, roles, safety, values⟩ := step_keepsRecords s t h
  exact ⟨roles, rates, safety, fun pools sound => (values ⟨pools.numbers_differ, sound⟩).values⟩

end Sys2Proof.Machine
end

section
/-! PROOF. Changes of slots one after another, and the commands that make them: RIG_CLEAR (R75), the safety input (R155),
SET_TYPE (R29, R30) and FORGET (R32). -/

namespace Sys2Proof.Machine

/-! ### Slots changed one after another -/

/-- Changes of slots, each of which depends on its own slot alone, change each slot of a list once. -/
theorem State.foldl_setSlot {f : State → SlotNo → State} {change : State → SlotNo → Slot}
    (one : ∀ u n, f u n = u.setSlot n (change u n))
    (own : ∀ (u : State) slots n, State.slot { u with slots := slots } n = u.slot n →
      change { u with slots := slots } n = change u n)
    {ns : List SlotNo} (nodup : ns.Nodup) (s : State) :
    ns.foldl f s = { s with slots := (ns.foldl f s).slots } ∧
      ∀ n, (ns.foldl f s).slot n = if n ∈ ns then change s n else s.slot n := by
  induction ns generalizing s with
  | nil => exact ⟨rfl, fun n => (if_neg List.not_mem_nil).symm⟩
  | cons m rest ih =>
    obtain ⟨fresh, nodup⟩ := List.nodup_cons.mp nodup
    obtain ⟨frame, slots⟩ := ih nodup (f s m)
    rw [List.foldl_cons]
    generalize rest.foldl f (f s m) = t at frame slots
    rw [one] at frame slots
    refine ⟨frame, fun n => ?_⟩
    rw [slots]
    by_cases here : n = m
    · subst here
      rw [if_neg fresh, if_pos List.mem_cons_self, State.setSlot_slot_self]
    · have later : n ∈ m :: rest ↔ n ∈ rest := by simp [here]
      simp only [later, State.setSlot_slot_ne _ _ here]
      exact if_congr Iff.rfl (own s _ n (State.setSlot_slot_ne _ _ here)) rfl

theorem nodup_allSlots : allSlots.Nodup := List.nodup_finRange 192

/-- The lowest number that passes a test. -/
theorem find?_finRange_eq_some {m : Nat} {p : Fin m → Bool} {k : Fin m} :
    (List.finRange m).find? p = some k ↔ p k = true ∧ ∀ j, j < k → p j = false := by
  have lowest : ∀ {k}, (List.finRange m).find? p = some k → p k = true ∧ ∀ j, j < k → p j = false := fun {k} h => by
    obtain ⟨passes, before, after, split, fail⟩ := List.find?_eq_some_iff_append.mp h
    refine ⟨passes, fun j hj => ?_⟩
    have ordered := List.pairwise_lt_finRange m
    have mem := List.mem_finRange j
    rw [split] at ordered mem
    obtain ⟨-, later, -⟩ := List.pairwise_append.mp ordered
    rcases List.mem_append.mp mem with early | late
    · simpa using fail j early
    · rcases List.mem_cons.mp late with rfl | late
      · exact absurd hj (lt_irrefl _)
      · exact absurd ((List.pairwise_cons.mp later).1 j late) (not_lt_of_gt hj)
  refine ⟨lowest, fun ⟨passes, fail⟩ => ?_⟩
  cases h : (List.finRange m).find? p with
  | none => exact absurd passes (List.find?_eq_none.mp h k (List.mem_finRange k))
  | some j =>
    obtain ⟨passes', fail'⟩ := lowest h
    rcases lt_trichotomy j k with lt | rfl | gt
    · rw [fail j lt] at passes'; cases passes'
    · rfl
    · rw [fail' k gt] at passes; cases passes

/-- Where nothing happened to the links before the answer. -/
theorem State.answer_of_links {s u : State} (links : u.links = s.links) (l : Link) (f : Frame) (x : Status) (d : AnswerData) :
    Answered s (u.answer l f x d) l f x d ∧ LinksKept s (u.answer l f x d) l ∧ Quiet s (u.answer l f x d) := by
  have link : ∀ k, u.link k = s.link k := fun k => by unfold State.link; rw [links]
  refine ⟨s.answer_answered u l f x d (by rw [link]), fun k => ?_, fun k => ?_⟩
  · exact u.answer_link_kept l k f x d (by rw [link])
  · exact u.answer_hears l k f x d (by rw [link]; exact ⟨rfl, rfl⟩)

theorem State.isActive_of_eq {s : State} {l : Link} (h : l = s.pair.activeLink) : s.isActive l = true := by
  rw [← Bool.not_eq_false, State.isActive_eq_false]
  exact not_not_intro h

/-! ### RIG_CLEAR (R35, R75) -/

/-- A slot parked at its present values. -/
def State.parkedSlot (s : State) (n : SlotNo) : Slot :=
  { s.slot n with
    parked := PerGroup.make fun g => s.present n g
    fades := { aim := none, colour := none, level := none }
    flags := { (s.slot n).flags with changed := (s.slot n).flags.changed || (s.slot n).fixture.isSome } }

theorem State.clearRig_spec (s : State) :
    s.clearRig = { s with slots := s.clearRig.slots, claims := [], expiryList := [] } ∧
      ∀ n, s.clearRig.slot n = s.parkedSlot n := by
  have own : ∀ (u : State) slots n, State.slot { u with slots := slots } n = u.slot n →
      State.parkedSlot { u with slots := slots } n = u.parkedSlot n := fun u slots n same => by
    have present : ∀ g, State.present { u with slots := slots } n g = u.present n g := fun g =>
      State.present_congr rfl (State.owner_congr rfl n g) (by rw [same]) (by rw [same])
    unfold State.parkedSlot
    simp only [same, present]
  obtain ⟨frame, slots⟩ := State.foldl_setSlot (f := State.parkSlot) (fun _ _ => rfl) own nodup_allSlots s
  have cleared : s.clearRig = { allSlots.foldl State.parkSlot s with claims := [], expiryList := [] } := rfl
  generalize allSlots.foldl State.parkSlot s = u at frame slots cleared
  rw [cleared]
  refine ⟨?_, fun n => (slots n).trans (if_pos (mem_allSlots n))⟩
  exact congrArg (fun v : State => { v with claims := [], expiryList := [] }) frame

/-- With no claim and no record a group shows its parked value. -/
theorem State.present_of_parked {t : State} {n : SlotNo} {g : Group} (claims : t.claims = [])
    (fade : (t.slot n).fades.get g = none) : t.present n g = (t.slot n).parked.get g := by
  have owner : t.owner n g = none := by unfold State.owner State.stack; rw [claims]; rfl
  simp only [State.present, State.runningFade, State.fade, fade, State.beneath, owner]

/-- Settles O25: parking a slot takes its present values alone, and what is parked shows once the claims are gone. -/
theorem rigClearParksEveryGroup : Obligations.RigClearParksEveryGroup := fun s l f hand active => by
  obtain ⟨frame, slots⟩ := s.clearRig_spec
  obtain ⟨answered, links, quiet⟩ := State.answer_of_links s.clearRig_links l f .ok .none
  refine ⟨_, (exec_rigClear hand).trans (by rw [State.withPermission_of_true (State.isActive_of_eq active)]), answered, links,
    quiet, fun n => ?_, ?_, fun n => ?_⟩
  · rw [State.answer_slot, slots]
    exact ⟨rfl, rfl, rfl, rfl⟩
  · generalize s.clearRig = u at frame
    exact congrArg (fun v : State => { v with links := (u.answer l f .ok .none).links }) frame
  · have slot : (s.clearRig.answer l f .ok .none).slot n = s.parkedSlot n := by rw [State.answer_slot, slots]
    have claims : (s.clearRig.answer l f .ok .none).claims = [] := rfl
    refine ⟨fun g => ?_, by rw [slot]; rfl⟩
    have none : ((s.clearRig.answer l f .ok .none).slot n).fades.get g = none := by rw [slot]; cases g <;> rfl
    have parked : ((s.clearRig.answer l f .ok .none).slot n).parked.get g = s.present n g := by
      rw [slot]; exact PerGroup.make_get _ g
    exact ⟨parked, none, (State.present_of_parked claims none).trans parked⟩

/-! ### The safety input (R153 to R155) -/

theorem State.setUrgentOnBound_spec (s : State) :
    s.setUrgentOnBound = { s with slots := s.setUrgentOnBound.slots } ∧
      ∀ n, s.setUrgentOnBound.slot n =
        { s.slot n with flags := { (s.slot n).flags with urgent := (s.slot n).flags.urgent || (s.slot n).fixture.isSome } } := by
  obtain ⟨frame, slots⟩ := State.foldl_setSlot (f := State.setUrgent)
    (change := fun u n => { u.slot n with flags := { (u.slot n).flags with urgent := true } }) (fun _ _ => rfl)
    (fun _ _ _ same => by simp only [same]) (nodup_allSlots.filter fun n => (s.slot n).fixture.isSome) s
  refine ⟨frame, fun n => (slots n).trans ?_⟩
  have bound : n ∈ allSlots.filter (fun n => (s.slot n).fixture.isSome) ↔ (s.slot n).fixture.isSome = true := by
    rw [List.mem_filter]; exact and_iff_right (mem_allSlots n)
  by_cases h : (s.slot n).fixture.isSome = true
  · rw [if_pos (bound.mpr h), h, Bool.or_true]
  · rw [if_neg (h ∘ bound.mp), Bool.eq_false_iff.mpr h, Bool.or_false]

theorem State.raiseAll_heardBy (s : State) (n : Notice) : HeardBy s (s.raiseAll n) allLinks n := fun k => by
  rw [State.raiseAll_link, if_pos (by cases k <;> decide)]

/-- Settles O36: both events wait for the filter's run of 10 ms at the other level. -/
theorem safetyInputIsFollowed : Obligations.SafetyInputIsFollowed := fun s running => by
  have assertion : exec .safetyAssertion s = .next (if s.safeNHigh = false ∧ s.safeAsserted = false ∧
      10000 ≤ s.micros - s.safeNChangedAt then s.assertSafety else s) :=
    congrArg Host.Outcome.next (State.whenRunning_of_running running _)
  have release : exec .safetyRelease s = .next (if s.safeNHigh = true ∧ s.safeAsserted = true ∧
      10000 ≤ s.micros - s.safeNChangedAt then s.releaseSafety else s) :=
    congrArg Host.Outcome.next (State.whenRunning_of_running running _)
  refine ⟨fun low released run => ?_, fun high asserted run => ?_, fun short => ?_, fun short => ?_⟩
  · rw [if_pos ⟨low, released, run⟩] at assertion
    obtain ⟨frame, slots⟩ := State.setUrgentOnBound_spec { s with safeAsserted := true, safety := .holding }
    have links := State.setUrgentOnBound_links { s with safeAsserted := true, safety := .holding }
    refine ⟨_, assertion, ?_⟩
    unfold State.assertSafety
    generalize State.setUrgentOnBound { s with safeAsserted := true, safety := .holding } = u at frame slots links
    have link : ∀ k, u.link k = s.link k := fun k => by unfold State.link; rw [links]
    have raised := u.raiseAll_frame (.safetyChanged .holding .asserted 0)
    have heard := u.raiseAll_heardBy (.safetyChanged .holding .asserted 0)
    generalize u.raiseAll (.safetyChanged .holding .asserted 0) = t at raised heard
    have whole : t = { s with safeAsserted := true, safety := .holding, links := t.links, slots := t.slots } := by
      rw [raised]; exact congrArg (fun v : State => { v with links := t.links }) frame
    exact ⟨by rw [raised, frame], by rw [raised, frame], fun k => by rw [heard k, link], whole,
      fun n => by rw [raised]; exact slots n⟩
  · rw [if_pos ⟨high, asserted, run⟩] at release
    have raised := State.raiseAll_frame { s with safeAsserted := false, safety := .latched }
      (.safetyChanged .latched .released 0)
    exact ⟨_, release, State.raiseAll_heardBy { s with safeAsserted := false, safety := .latched } _, raised⟩
  · refine assertion.trans (congrArg _ (if_neg ?_))
    rintro ⟨low, released, run⟩
    rcases short with h | h | h
    · rw [low] at h; cases h
    · rw [released] at h; cases h
    · omega
  · refine release.trans (congrArg _ (if_neg ?_))
    rintro ⟨low, released, run⟩
    rcases short with h | h | h
    · rw [low] at h; cases h
    · rw [released] at h; cases h
    · omega

/-! ### SET_TYPE (R23, R29, R30) -/

theorem State.entryOf_eq_some {s : State} {code : BitVec 16} {k : Fin 16} :
    s.entryOf code = some k ↔
      ∃ e, s.typeEntry k = some e ∧ e.code = code ∧ ∀ j d, j < k → s.typeEntry j = some d → d.code ≠ code := by
  refine find?_finRange_eq_some.trans ?_
  simp only [decide_eq_true_eq, decide_eq_false_iff_not, Option.map_eq_some_iff, not_exists, not_and]
  constructor
  · rintro ⟨⟨e, he, hc⟩, below⟩; exact ⟨e, he, hc, fun j d hj => below j hj d⟩
  · rintro ⟨e, he, hc, below⟩; exact ⟨⟨e, he, hc⟩, fun j hj d => below j d hj⟩

theorem State.entryOf_eq_none {s : State} {code : BitVec 16} :
    s.entryOf code = none ↔ ∀ k e, s.typeEntry k = some e → e.code ≠ code := by
  refine List.find?_eq_none.trans ?_
  simp only [decide_eq_true_eq, Option.map_eq_some_iff, not_exists, not_and]
  exact ⟨fun h k => h k (List.mem_finRange k), fun h k _ => h k⟩

theorem State.unusedEntry_eq_some {s : State} {k : Fin 16} :
    s.unusedEntry = some k ↔ s.typeEntry k = none ∧ ∀ j, j < k → (s.typeEntry j).isSome = true := by
  refine find?_finRange_eq_some.trans ?_
  simp only [Option.isNone_iff_eq_none, Option.isNone_eq_false_iff]

theorem State.unusedEntry_eq_none {s : State} : s.unusedEntry = none ↔ ∀ k, (s.typeEntry k).isSome = true := by
  refine List.find?_eq_none.trans ⟨fun h k => ?_, fun h k _ => ?_⟩
  · simpa [Option.isSome_iff_ne_none] using h k (List.mem_finRange k)
  · simpa [Option.isSome_iff_ne_none] using h k

/-- R29, R30: the entry is written, and each slot takes its number where it concerns it. -/
theorem State.writeType_spec (s : State) (k : Fin 16) (code : BitVec 16) (m : Matrix) :
    s.writeType k code m = { s with slots := (s.writeType k code m).slots, types := (s.writeType k code m).types } ∧
      (s.writeType k code m).types = (s.setTypeEntry k { code := code, matrix := m }).types ∧
      ∀ n, (s.writeType k code m).slot n = (s.slot n).retyped code k := by
  obtain ⟨frame, slots⟩ := State.foldl_setSlot (f := fun s n => s.setSlot n ((s.slot n).retyped code k))
    (change := fun u n => (u.slot n).retyped code k) (fun _ _ => rfl) (fun _ _ _ same => by simp only [same])
    nodup_allSlots (s.setTypeEntry k { code := code, matrix := m })
  refine ⟨?_, by unfold State.writeType; rw [frame], fun n => (slots n).trans (if_pos (mem_allSlots n))⟩
  unfold State.writeType
  generalize allSlots.foldl _ (s.setTypeEntry k { code := code, matrix := m }) = u at frame
  rw [frame]
  rfl

/-- Settles O40: the entry taken is the one that holds the code, or else the lowest unused one. -/
theorem setTypeWritesAnEntry : Obligations.SetTypeWritesAnEntry := fun s l f code m hand active => by
  have taken := (exec_setType hand).trans (by rw [State.withPermission_of_true (State.isActive_of_eq active)])
  refine ⟨fun unheld full => ⟨_, taken, ?_⟩, fun k entry => ?_⟩
  · unfold State.takeSetType
    simp only [State.entryOf_eq_none.mpr unheld, State.unusedEntry_eq_none.mpr full]
    exact s.refuse_answeredOnly l f _
  · have wrote : s.takeSetType l code m f = (s.writeType k code m).answer l f .ok (.entry k.val) := by
      unfold State.takeSetType
      rcases entry with held | ⟨unheld, unused⟩
      · simp only [State.entryOf_eq_some.mpr held]
      · simp only [State.entryOf_eq_none.mpr unheld, State.unusedEntry_eq_some.mpr unused]
    rw [wrote] at taken
    obtain ⟨frame, types, slots⟩ := s.writeType_spec k code m
    have told := s.writeType_links k code m
    generalize s.writeType k code m = u at taken frame types slots told
    obtain ⟨answered, links, quiet⟩ := State.answer_of_links told l f .ok (.entry k.val)
    have entries : ∀ j, u.typeEntry j = if j = k then some { code := code, matrix := m } else s.typeEntry j := fun j => by
      rw [← State.setTypeEntry_typeEntry]; unfold State.typeEntry; rw [types]
    refine ⟨_, taken, answered, links, quiet, ?_, (entries k).trans (if_pos rfl), fun j hj => (entries j).trans (if_neg hj),
      fun n => (slots n).trans ?_⟩
    · exact congrArg (fun v : State => { v with links := (u.answer l f .ok (.entry k.val)).links }) frame
    · cases bound : (s.slot n).fixture with
      | none => exact Slot.retyped_of_free bound code k
      | some x => exact Slot.retyped_of_bound bound code k

/-! ### FORGET (R32) -/

theorem State.forgetSlots_spec (s : State) {slots : List SlotNo} (nodup : slots.Nodup) :
    slots.foldl State.forgetSlot s = { s with slots := (slots.foldl State.forgetSlot s).slots } ∧
      ∀ n, (slots.foldl State.forgetSlot s).slot n =
        if n ∈ slots ∧ (s.slot n).state = .missing then
          { s.slot n with fixture := none, flags := SlotFlags.allClear }
        else s.slot n := by
  obtain ⟨frame, changed⟩ := State.foldl_setSlot (f := State.forgetSlot)
    (change := fun u n => if (u.slot n).state = .missing then
      { u.slot n with fixture := none, flags := SlotFlags.allClear } else u.slot n)
    (fun u n => by
      unfold State.forgetSlot
      split
      · rfl
      · exact (u.setSlot_slot_back n).symm)
    (fun _ _ _ same => by simp only [same]) nodup s
  exact ⟨frame, fun n => by rw [changed, ite_and]⟩

/-- Settles O41: a FORGET that no ONLINE slot stops frees the MISSING slots of its set one by one. -/
theorem forgetFreesMissingSlots : Obligations.ForgetFreesMissingSlots := fun s l f set slots hand listed active => by
  have taken := (exec_forget hand).trans (by
    rw [State.withSlots_of_some listed, State.withPermission_of_true (State.isActive_of_eq active)])
  refine ⟨_, taken, ?_⟩
  unfold State.takeForget
  split
  · exact s.refuse_answeredOnly l f _
  · obtain ⟨frame, changed⟩ := s.forgetSlots_spec (SlotSet.slots_nodup listed)
    generalize slots.foldl State.forgetSlot s = u at frame changed
    obtain ⟨answered, links, quiet⟩ := State.answer_of_links (s := s) (u := u) (by rw [frame]) l f .ok .none
    exact ⟨answered, congrArg (fun v : State => { v with links := (u.answer l f .ok .none).links }) frame, links, quiet,
      changed⟩

end Sys2Proof.Machine
end

section
/-! PROOF. READ_SLOT and READ_CLAIMS (R34, R74), present values and own values (R107 to R109, R113 to R115). -/

namespace Sys2Proof.Machine

/-! ### The stack as it is reported (R57, R74) -/

theorem insertInStack_perm (c : Claim) (l : List Claim) : (insertInStack c l).Perm (c :: l) := by
  induction l with
  | nil => exact .refl _
  | cons d rest ih =>
    unfold insertInStack
    split
    · exact .refl _
    · exact (ih.cons d).trans (.swap c d rest)

theorem State.stack_perm (s : State) (n : SlotNo) (g : Group) :
    (s.stack n g).Perm (s.claims.filter (fun c => decide (c.slot = n) && decide (c.group = g))) := by
  unfold State.stack
  generalize s.claims.filter _ = l
  induction l with
  | nil => exact .refl _
  | cons c rest ih => exact (insertInStack_perm c _).trans (ih.cons c)

theorem mayPrecede_of_not_before {a b : Claim} (h : b.before a = false) : MayPrecede a b := by
  simp only [Claim.before, Bool.or_eq_false_iff, Bool.and_eq_false_iff, decide_eq_false_iff_not] at h
  obtain ⟨tier, h⟩ := h
  rcases Nat.lt_or_ge a.link.tier b.link.tier with first | behind
  · exact .inl first
  · have same : a.link.tier = b.link.tier := by omega
    refine .inr ⟨same, fun live => ?_⟩
    rcases h with other | ⟨role, order⟩
    · exact absurd same.symm other
    · have live' : a.role = .live := by
        cases shadow : a.role with
        | live => rfl
        | shadow => exact absurd shadow (role.resolve_left (not_not_intro live))
      refine ⟨live', ?_⟩
      rcases order with (not | not) | order
      · exact absurd live not
      · exact absurd live' not
      · exact Nat.not_lt.mp order

theorem State.reportedStack_ordered (s : State) (n : SlotNo) (g : Group) :
    (s.reportedStack n g).Pairwise (fun a b => s.owner n g = some a ∨ MayPrecede a b) := by
  have ordered : (s.stack n g).Pairwise (fun a b => s.owner n g = some a ∨ MayPrecede a b) :=
    (s.stack_ordered n g).imp fun h => .inr (mayPrecede_of_not_before h)
  unfold State.reportedStack
  split
  · exact ordered
  · rename_i c owner
    exact List.pairwise_cons.mpr ⟨fun _ _ => .inl owner, ordered.sublist List.erase_sublist⟩

/-- R58, R74: the view of a claim of a group's stack. -/
theorem State.claimView_of_mem {s : State} {n : SlotNo} {g : Group} {c : Claim} (h : c ∈ s.reportedStack n g) :
    s.claimView c =
      { claim := c
        standing := if c.role = .shadow then .shadow else if s.ownerNumber n g = some c.number then .owner else .held
        phase := c.running.map fun r => if elapsed r.startTime s.now < r.step.duration then .moving else .dwelling } := by
  obtain ⟨-, rfl, rfl⟩ := State.mem_stack.mp ((s.reportedStack_spec n g).1.mem_iff.mp h)
  rfl

/-! ### Answers -/

theorem State.readSlot_reported {s : State} {l : Link} {f : Frame} {n : SlotNo} (hand : s.InHand l f (.readSlot n.val)) :
    ∃ t, exec (.readSlot l) s = .next t ∧ LinksKept s t l ∧ Quiet s t ∧
      t = { s with links := t.links, slots := t.slots } ∧ (∀ m, m ≠ n → t.slot m = s.slot m) ∧
      t.slot n = { s.slot n with fades := { aim := s.runningFade n .aim, colour := s.runningFade n .colour,
                                            level := s.runningFade n .level } } ∧
      Answered s t l f .ok (.slot n (t.slot n)
        (PerGroup.make fun g => { ownerLink := (s.owner n g).map (·.link), present := s.present n g,
                                  fading := (s.runningFade n g).isSome })) := by
  have taken := exec_readSlot hand (slotOfNumber_eq_some.mpr rfl)
  obtain ⟨answered, links, quiet⟩ := State.answer_of_links (s := s) (u := s.evaluatedAll n) rfl l f .ok
    (.slot n ((s.evaluatedAll n).slot n) (PerGroup.make (s.groupView n)))
  exact ⟨_, taken, links, quiet, rfl, fun m hm => (s.evaluatedAll_slot n m).trans (if_neg hm),
    (s.evaluatedAll_slot n n).trans (if_pos rfl), answered⟩

theorem State.readClaims_reported {s : State} {l : Link} {f : Frame} {n : SlotNo} {g : Group}
    (hand : s.InHand l f (.readClaims n.val g)) :
    ∃ t, exec (.readClaims l) s = .next t ∧ LinksKept s t l ∧ Quiet s t ∧
      t = { s with links := t.links, slots := t.slots } ∧ (∀ m, m ≠ n → t.slot m = s.slot m) ∧
      t.slot n = { s.slot n with fades := (s.slot n).fades.set g (s.runningFade n g) } ∧
      Answered s t l f .ok (.claims g ((s.reportedStack n g).map s.claimView) (s.runningFade n g)) := by
  have taken := exec_readClaims hand (slotOfNumber_eq_some.mpr rfl)
  obtain ⟨answered, links, quiet⟩ := State.answer_of_links (s := s) (u := s.evaluated n g) rfl l f .ok
    (.claims g ((s.reportedStack n g).map s.claimView) (s.runningFade n g))
  exact ⟨_, taken, links, quiet, rfl, fun m hm => (s.evaluated_slot n g m).trans (if_neg hm),
    (s.evaluated_slot n g n).trans (if_pos rfl), answered⟩

/-! ### Values -/

/-- R114: the record of a group runs until its duration has passed. -/
theorem State.runningFade_eq_none {s : State} {n : SlotNo} {g : Group} {x : Crossfade}
    (h : (s.slot n).fades.get g = some x) : s.runningFade n g = none ↔ x.duration ≤ x.start.age s.now := by
  unfold State.runningFade State.fade Crossfade.spent
  simp only [h, decide_eq_true_eq]
  split
  · exact iff_of_true rfl ‹_›
  · exact iff_of_false (fun e => nomatch e) ‹_›

theorem State.runningFade_cases (s : State) (n : SlotNo) (g : Group) :
    s.runningFade n g = (s.slot n).fades.get g ∨ s.runningFade n g = none := by
  cases running : s.runningFade n g with
  | none => exact .inr rfl
  | some x => exact .inl (State.runningFade_eq_some.mp running).1.symm

/-- R59, R113, R115: the present value, written out. -/
theorem State.present_eq (s : State) (n : SlotNo) (g : Group) :
    s.present n g =
      (let beneath := match s.owner n g with
        | none => (s.slot n).parked.get g
        | some c => c.ownValue s.now
       match s.runningFade n g with
        | none => beneath
        | some x =>
          List.zipWith (fun v p => interpolate v p (x.start.age s.now * 65536 / x.duration)) x.fromValue beneath) := by
  unfold State.present State.beneath
  cases s.runningFade n g <;> cases s.owner n g <;> rfl

/-- R108, R109, R113: the value of a running step, written out. -/
theorem Claim.ownValue_of_running {c : Claim} {r : RunningStep} (h : c.running = some r) (t : Reading) :
    c.ownValue t =
      (if r.step.duration = 0 ∨ r.step.duration ≤ elapsed r.startTime t then r.step.target
      else if r.adjusted = .snap then r.step.target
      else if r.adjusted = .snapEnd then r.startValue
      else
        List.zipWith
          (fun v p => interpolate v p (shape r.adjusted (elapsed r.startTime t * 65536 / r.step.duration)))
          r.startValue r.step.target) := by
  simp only [Claim.ownValue, h, RunningStep.value]
  refine if_congr Iff.rfl rfl ?_
  cases r.adjusted <;> rfl

/-- Settles O42: the answers read the state of the taking, and each value is the model's own equation. -/
theorem slotAndClaimsAreReported : Obligations.SlotAndClaimsAreReported := by
  refine ⟨fun s l f n => ⟨State.readSlot_reported, fun g hand => ?_⟩, fun s n g => ?_, fun c t => ?_⟩
  · obtain ⟨t, taken, links, quiet, frame, others, slot, answered⟩ := State.readClaims_reported hand
    obtain ⟨perm, head⟩ := s.reportedStack_spec n g
    rw [List.map_congr_left fun c mem => State.claimView_of_mem mem] at answered
    exact ⟨t, _, taken, links, quiet, frame, others, slot, perm.trans (s.stack_perm n g), head,
      s.reportedStack_ordered n g, answered⟩
  · exact ⟨s.runningFade_cases n g, fun x => State.runningFade_eq_none, s.present_eq n g, fun sound => sound.present_fits n g⟩
  · exact ⟨fun rest => Claim.ownValue_of_rest rest t, fun r running => Claim.ownValue_of_running running t⟩

end Sys2Proof.Machine
end

section
/-! PROOF. The pick of a line and the SET frame that it builds (R119 to R123, R127 to R133, R143, R144, R146). -/

namespace Sys2Proof.Machine

/-! ### Stamps (R106) -/

/-- R25, R106: an absent stamp and an old one lie longer ago than any period. -/
theorem atLeastAgo_iff {a : Option Stamp} {period : Nat} (h : period ≤ 4294967296) (t : Reading) :
    AtLeastAgo a period t ↔ period ≤ ageOrNever a t := by
  unfold AtLeastAgo ageOrNever Stamp.age
  cases a with
  | none => exact iff_of_true (fun _ e => nomatch e) (by dsimp only; omega)
  | some x =>
    cases old : x.old with
    | true => exact iff_of_true (fun y e => by cases e; exact .inl old) (by simpa [old] using h)
    | false => simp [old]

theorem longerAgo_iff (a b : Option Stamp) (t : Reading) : LongerAgo a b t ↔ ageOrNever b t < ageOrNever a t := by
  unfold LongerAgo ageOrNever Stamp.age
  cases b with
  | none =>
    refine iff_of_false (by cases a <;> exact id) ?_
    cases a with
    | none => exact lt_irrefl _
    | some x =>
      have := elapsed_lt x.reading t
      dsimp only
      split <;> omega
  | some y =>
    have := elapsed_lt y.reading t
    cases a with
    | none =>
      refine iff_of_true trivial ?_
      dsimp only
      split <;> omega
    | some x =>
      have := elapsed_lt x.reading t
      cases hx : x.old <;> cases hy : y.old <;> simp [hx, hy] <;> omega

theorem Fixture.waited_eq (f : Fixture) (k : SlotClass) (t : Reading) : f.waited k t = ageOrNever (servedAt k f) t := by
  cases k <;> rfl

/-! ### Classes (R51, R143) -/

section Classes
variable {s : State} {n : SlotNo} {f : Fixture}

theorem State.groupMoves_iff (values : s.ValuesSound) (n : SlotNo) (g : Group) :
    s.groupMoves n g = true ↔
      (∃ c r, s.owner n g = some c ∧ c.running = some r ∧ elapsed r.startTime s.now < r.step.duration) ∨
        ∃ x, (s.slot n).fades.get g = some x ∧ x.start.old = false ∧ elapsed x.start.reading s.now < x.duration := by
  have fading : (s.runningFade n g).isSome = true ↔
      ∃ x, (s.slot n).fades.get g = some x ∧ x.start.old = false ∧ elapsed x.start.reading s.now < x.duration := by
    rw [Option.isSome_iff_exists]
    refine exists_congr fun x => State.runningFade_eq_some.trans (and_congr_right fun record => ?_)
    obtain ⟨-, short⟩ := values.fade_fits n g x record
    rw [Crossfade.spent, decide_eq_false_iff_not, Nat.not_le, Stamp.age]
    cases x.start.old with
    | true => exact iff_of_false (by rw [if_pos rfl]; omega) fun h => nomatch h.1
    | false => exact (and_iff_right rfl).symm
  have moving : (match (s.owner n g).bind (·.running) with
      | none => false
      | some r => decide (r.phase s.now = .moving)) = true ↔
      ∃ c r, s.owner n g = some c ∧ c.running = some r ∧ elapsed r.startTime s.now < r.step.duration := by
    cases s.owner n g with
    | none => simp
    | some c =>
      cases running : c.running with
      | none => simp [running]
      | some r => simp [running, RunningStep.phase]
  rw [State.groupMoves, Bool.or_eq_true, fading, or_comm]
  exact or_congr moving Iff.rfl

/-- R51, R143: the model's test of a class is membership in it. -/
theorem State.memberOf_iff (line : (s.line f.line).Sound) (values : s.ValuesSound) (k : SlotClass) :
    s.memberOf n f k = true ↔ InClass s n f k := by
  obtain ⟨-, refresh⟩ := line.refresh_range
  obtain ⟨-, join⟩ := line.join_range
  cases k with
  | urgent => exact Bool.and_eq_true_iff
  | changed => exact Bool.and_eq_true_iff
  | overdue =>
    refine Bool.and_eq_true_iff.trans (and_congr_right fun _ => decide_eq_true_iff.trans ?_)
    exact (atLeastAgo_iff (by omega) s.now).symm
  | moving =>
    refine Bool.and_eq_true_iff.trans (and_congr_right fun _ => ?_)
    rw [Bool.or_eq_true, or_comm, List.any_eq_true]
    refine or_congr Iff.rfl (exists_congr fun g => ?_)
    rw [State.groupMoves_iff values]
    exact and_iff_right (by cases g <;> decide)
  | refresh =>
    refine Bool.and_eq_true_iff.trans (and_congr_right fun _ => decide_eq_true_iff.trans ?_)
    exact (atLeastAgo_iff (by omega) s.now).symm
  | recover =>
    refine Bool.and_eq_true_iff.trans (and_congr (by simp) (decide_eq_true_iff.trans ?_))
    exact (atLeastAgo_iff (by omega) s.now).symm

end Classes

/-! ### The pick (R143 to R145) -/

/-- R144: of members in the order of their numbers, the one taken has none before it that waited as long. -/
theorem longestWaiting_eq_some {l : List (SlotNo × Nat)} (ordered : l.Pairwise fun a b => a.1 < b.1) {x : SlotNo × Nat}
    (mem : x ∈ l) (longest : ∀ y ∈ l, y.2 ≤ x.2) (first : ∀ y ∈ l, y.1 < x.1 → y.2 < x.2) :
    longestWaiting l = some x := by
  induction l with
  | nil => cases mem
  | cons a rest ih =>
    obtain ⟨front, ordered⟩ := List.pairwise_cons.mp ordered
    unfold longestWaiting
    rcases List.mem_cons.mp mem with rfl | mem
    · split
      · rfl
      · rename_i y found
        exact if_pos (longest y (List.mem_cons_of_mem _ (longestWaiting_spec found).1))
    · rw [ih ordered mem (fun y hy => longest y (List.mem_cons_of_mem _ hy)) fun y hy => first y (List.mem_cons_of_mem _ hy)]
      exact if_neg (Nat.not_le.mpr (first a List.mem_cons_self (front x mem)))

theorem State.members_ordered (s : State) (ln : LineNo) (k : SlotClass) :
    (s.members ln k).Pairwise fun a b => a.1 < b.1 := by
  have slots : (s.slotsOf ln).Pairwise (· < ·) := (List.pairwise_lt_finRange 192).filter _
  refine slots.filterMap _ fun n m lt a ha b hb => ?_
  have number : ∀ {n : SlotNo} {a : SlotNo × Nat}, (match (s.slot n).fixture with
      | none => none
      | some f => if s.memberOf n f k then some (n, f.waited k s.now) else none) = some a → a.1 = n := fun {n a} h => by
    split at h
    · cases h
    · split at h
      · cases h; rfl
      · cases h
  rw [number ha, number hb]
  exact lt

section Pick
variable {s : State} {ln : LineNo} {k : SlotClass} {n : SlotNo} {f : Fixture}

theorem State.longestWaiting_of_served (line : (s.line ln).Sound) (values : s.ValuesSound) (served : IsServed s ln k n f) :
    longestWaiting (s.members ln k) = some (n, f.waited k s.now) := by
  obtain ⟨bound, rfl, member, -, order⟩ := served
  refine longestWaiting_eq_some (s.members_ordered f.line k)
    (State.mem_members.mpr ⟨f, bound, rfl, (State.memberOf_iff line values k).mpr member, rfl⟩) ?_ ?_
  all_goals
    rintro ⟨m, w⟩ mem
    obtain ⟨h, hm, on, inClass, rfl⟩ := State.mem_members.mp mem
    obtain ⟨longest, first⟩ := order m h hm on ((State.memberOf_iff (on ▸ line) values k).mp inClass)
    simp only [longerAgo_iff, ← Fixture.waited_eq, Nat.not_lt] at longest first
  · exact longest
  · exact first

/-- R143, R144: the slot that is served is the one picked. -/
theorem State.pickSlot_of_served (line : (s.line ln).Sound) (values : s.ValuesSound) (served : IsServed s ln k n f) :
    s.pickSlot ln = some (k, n) := by
  have longest := State.longestWaiting_of_served line values served
  obtain ⟨-, -, -, before, -⟩ := served
  obtain ⟨after, split⟩ : ∃ after, allClasses = classesBefore k ++ k :: after := by cases k <;> exact ⟨_, rfl⟩
  have none : (classesBefore k).findSome? (fun j => (longestWaiting (s.members ln j)).map (fun x => (j, x.1))) = none := by
    refine List.findSome?_eq_none_iff.mpr fun j hj => Option.map_eq_none_iff.mpr (longestWaiting_none.mpr ?_)
    refine List.eq_nil_iff_forall_not_mem.mpr ?_
    rintro ⟨m, w⟩ mem
    obtain ⟨h, hm, on, inClass, -⟩ := State.mem_members.mp mem
    exact before j hj m h hm on ((State.memberOf_iff (on ▸ line) values j).mp inClass)
  rw [State.pickSlot, split, List.findSome?_append, none, Option.none_or, List.findSome?_cons, longest]
  rfl

/-- R138, R146: a line that can pick begins a SET exchange with the slot that is served. -/
theorem exec_schedulerPick_of_served (line : (s.line ln).Sound) (values : s.ValuesSound) (can : CanPick s ln)
    (served : IsServed s ln k n f) (set : k ≠ .recover) : exec (.schedulerPick ln) s = .next (s.startSet ln n f) := by
  obtain ⟨running, idle, rested, waits⟩ := can
  have may : s.mayPick ln = true := by simp [State.mayPick, State.rested, idle, rested, waits]
  refine (congrArg Host.Outcome.next (State.whenRunning_of_running running _)).trans (congrArg _ ?_)
  simp only [State.pick, may, if_true, State.pickSlot_of_served line values served, served.1, if_neg set]

end Pick

/-! ### Levels (R130 to R133) -/

theorem gamutScale_le {raws : List Nat} {x : Nat} (h : x ∈ gamutScale raws) : x ≤ 65535 := by
  obtain ⟨bound, -⟩ := largest_spec raws
  unfold gamutScale at h
  split at h
  · exact (bound x h).trans ‹_›
  · obtain ⟨raw, mem, rfl⟩ := List.mem_map.mp h
    refine Nat.div_le_of_le_mul ?_
    exact Nat.mul_le_mul_right _ (bound raw mem)

/-- R132: no emitter is brighter than the level. -/
theorem scaleLevel_le {raw level : Nat} (h : raw ≤ 65535) : scaleLevel level raw ≤ level := by
  have : raw * level ≤ 65535 * level := Nat.mul_le_mul_right _ h
  unfold scaleLevel
  omega

/-- R133: darkness. -/
theorem scaleLevel_zero (raw : Nat) : scaleLevel 0 raw = 0 := by
  simp [scaleLevel]

theorem outOfGamut_eq (raws : List Nat) : outOfGamut raws = decide (∃ raw ∈ raws, 65535 < raw) := by
  obtain ⟨bound, largest⟩ := largest_spec raws
  refine decide_eq_decide.mpr ⟨fun h => ?_, fun ⟨raw, mem, h⟩ => h.trans_le (bound raw mem)⟩
  rcases largest with zero | mem
  · omega
  · exact ⟨_, mem, h⟩

/-! ### The build (R119 to R123, R146) -/

section Build
variable (s : State) (n : SlotNo) (f : Fixture)

theorem State.buildColour_fst (s : State) (n : SlotNo) (f : Fixture) :
    (s.buildColour n f).1 =
      (gamutScale (rawLevels (s.matrixFor f.typeIndex) f.emitters ((s.present n .colour).getD 0 0)
        ((s.present n .colour).getD 1 0) ((s.present n .colour).getD 2 0))).map
          (scaleLevel (s.levelFor (s.present n .level))) := rfl

theorem State.buildColour_length : (s.buildColour n f).1.length = min f.emitters 5 := by
  rw [State.buildColour_fst, List.length_map, gamutScale_length, rawLevels_length]

/-- R119 to R123: LAGGING says whether what is sent differs from the present aim. -/
theorem State.buildAim_limited :
    (s.buildAim n f).limited = decide ((s.buildAim n f).pan ≠ (s.present n .aim).getD 0 0 ∨
      (s.buildAim n f).tilt ≠ (s.present n .aim).getD 1 0) := by
  rw [Bool.eq_iff_iff, decide_eq_true_iff]
  unfold State.buildAim
  dsimp only
  split
  · simp only [normalAim, Bool.or_eq_true, isLimited_iff]
  · simp only [heldAim, Bool.or_eq_true, decide_eq_true_eq, ne_comm]

/-- R25, R121, R123: the fixture as a build leaves it, in both cases of the safety state. -/
theorem State.builtFixture_eq :
    s.builtFixture n f =
      { f with
        refPan := (s.buildAim n f).pan, refTilt := (s.buildAim n f).tilt
        refTime := if s.safety = .clear then s.stampNow else f.refTime
        lastSent := some { pan := (s.buildAim n f).pan, tilt := (s.buildAim n f).tilt, levels := (s.buildColour n f).1
                           time := s.stampNow } } := by
  unfold State.builtFixture State.buildAim
  split <;> rfl

theorem State.startSet_slot (ln : LineNo) :
    (s.startSet ln n f).slot n =
      { fixture := some (s.builtFixture n f)
        parked := (s.slot n).parked
        fades := { aim := s.runningFade n .aim, colour := s.runningFade n .colour, level := s.runningFade n .level }
        flags := { changed := false, urgent := false, lagging := (s.buildAim n f).limited
                   gamut := (s.buildColour n f).2 } } := by
  show (State.setSlot _ n _).slot n = _
  rw [State.setSlot_slot_self, State.evaluatedAll_slot, if_pos rfl]
  rfl

theorem State.startSet_exchange (ln : LineNo) :
    ((s.startSet ln n f).line ln).exchange =
      some { frame := .set n f.address (s.buildAim n f).pan (s.buildAim n f).tilt (s.buildColour n f).1
             rate := (s.line ln).effective, phase := .frame
             ends := s.micros + (s.line ln).effective.charMicros *
               (LineFrame.set n f.address (s.buildAim n f).pan (s.buildAim n f).tilt
                 (s.buildColour n f).1).bytes.length } := by
  unfold State.startSet State.beginExchange
  dsimp only
  rw [State.setLine_line_self]
  rfl

end Build

/-- Settles O45: the slot served is picked, and its build is read off by the safety state. -/
theorem setFrameCarriesTheInstant : Obligations.SetFrameCarriesTheInstant := by
  intro s ln k n f lines values can set served
  have line := lines can.1 ln
  refine ⟨_, (s.buildAim n f).pan, (s.buildAim n f).tilt, (s.buildColour n f).1, _, _,
    exec_schedulerPick_of_served line values can served set, s.startSet_exchange n f ln, s.buildColour_length n f, ?_, ?_⟩
  · unfold State.buildAim
    rw [State.buildColour_fst]
    split
    · rename_i clear
      have level : s.levelFor (s.present n .level) = (s.present n .level).getD 0 0 := if_pos clear
      rw [level]
      refine ⟨rfl, rfl, rfl, fun _ x hx => ?_⟩
      obtain ⟨raw, mem, rfl⟩ := List.mem_map.mp hx
      exact scaleLevel_le (gamutScale_le mem)
    · rename_i held
      have level : s.levelFor (s.present n .level) = 0 := if_neg held
      rw [level]
      refine ⟨rfl, rfl, fun x hx => ?_⟩
      obtain ⟨raw, -, rfl⟩ := List.mem_map.mp hx
      exact scaleLevel_zero raw
  · rw [State.startSet_slot, State.builtFixture_eq, State.buildAim_limited,
      show (s.buildColour n f).2 = _ from outOfGamut_eq _]
    rfl

end Sys2Proof.Machine
end

section
/-! PROOF. The replies of fixtures as they are judged (R43, R140, R151, R152, R160). -/

namespace Sys2Proof.Machine

/-! ### Replies read back (R160) -/

/-- The bytes of a checked frame are the frame written for its fields. -/
theorem lineBytes_toNat (a k : Byte) (payload : List Byte) :
    lineBytes a.toNat k payload = a :: k :: payload ++ [crc8 (a :: k :: payload)] := by
  simp [lineBytes]

theorem judgeAck_eq_wrongAddress {a : Nat} {reply : List RxChar} (h : judgeAck a reply = .wrongAddress) :
    WrongAck a reply := by
  unfold judgeAck at h
  split at h
  · rename_i b k c p1 p2 q1 q2 check bytes
    split at h
    · rename_i checked
      obtain ⟨rfl, rfl⟩ := checked
      split at h
      · rename_i other
        refine ⟨b.toNat, c, number16 p1 p2, number16 q1 q2, b.isLt, other, ?_⟩
        rw [bytes, lineBytes_toNat, bytes16_number16, bytes16_number16]
        rfl
      · split at h <;> cases h
    · cases h
  · cases h

theorem judgeAck_eq_good {a p q : Nat} {reply : List RxChar} {s : ConditionSet} (h : judgeAck a reply = .good s p q) :
    ∃ c, reply.take 8 = ackOf a c p q := by
  unfold judgeAck at h
  split at h
  · rename_i b k c p1 p2 q1 q2 check bytes
    split at h
    · rename_i checked
      obtain ⟨rfl, rfl⟩ := checked
      split at h
      · cases h
      · rename_i same
        split at h
        · rename_i whole
          cases h
          refine ⟨c, eq_asCharacters.mpr ⟨?_, ?_⟩⟩
          · rw [bytes, ← not_not.mp same, lineBytes_toNat, bytes16_number16, bytes16_number16]
            rfl
          · rw [← Bool.not_eq_true, ← List.not_all_eq_any_not, whole]; decide
        · cases h
    · cases h
  · cases h

/-- R140: a reply that is neither the good ACK nor a checked ACK from another address. -/
theorem judgeAck_bad {a : Nat} {reply : List RxChar} (own : ∀ c p q, reply.take 8 ≠ ackOf a c p q)
    (other : ¬WrongAck a reply) : judgeAck a reply = .bad := by
  cases h : judgeAck a reply with
  | good s p q =>
    obtain ⟨c, ack⟩ := judgeAck_eq_good h
    exact absurd ack (own c p q)
  | wrongAddress => exact absurd (judgeAck_eq_wrongAddress h) other
  | bad => rfl

theorem judgeAck_of_wrongAck {a : Nat} {reply : List RxChar} (h : WrongAck a reply) : judgeAck a reply = .wrongAddress := by
  obtain ⟨b, c, p, q, range, other, bytes⟩ := h
  exact judgeAck_other range other bytes

/-- R151: the notice of one condition, where it entered or left. -/
def conditionNotice (n : SlotNo) (stored reported : ConditionSet) (c : FixtureCondition) : Option Notice :=
  if stored.has c = reported.has c then none else some (.fixtureCondition n c (reported.has c))

/-- R151: the notices of a change of the condition set, condition by condition. -/
theorem conditionNotices_eq (n : SlotNo) (stored reported : ConditionSet) :
    conditionNotices n stored reported = conditionChanges n stored reported := by
  have one : ∀ c rest, List.filterMap (conditionNotice n stored reported) (c :: rest) =
      (if stored.has c = reported.has c then [] else [.fixtureCondition n c (reported.has c)]) ++
        List.filterMap (conditionNotice n stored reported) rest := fun c rest => by
    by_cases same : stored.has c = reported.has c <;> simp [conditionNotice, same]
  show List.filterMap (conditionNotice n stored reported) allConditions = _
  rw [allConditions, one, one, one, one, one, List.filterMap_nil, List.append_nil]
  simp only [conditionChanges, List.append_assoc]
  rfl

theorem rateOfCode_iff {code : Nat} {r : Rate} :
    ((code = 0 ∧ r = .r250) ∨ (code = 1 ∧ r = .r500) ∨ (code = 2 ∧ r = .r1000) ∨ (code = 3 ∧ r = .r2000)) ↔
      rateOfCode code = some r := by
  rw [rateOfCode_eq_some]
  cases r <;> simp [Rate.code]

/-- R43, R160: what is judged good is the CAPS written for what it declares. -/
theorem goodCaps_of_judgeCaps {a : Nat} {reply : List RxChar} {caps : Caps} (h : judgeCaps a reply = some caps) :
    GoodCaps a reply caps := by
  unfold judgeCaps at h
  split at h
  · rename_i b k c p1 p2 q1 q2 y1 y2 e r ps1 ps2 ts1 ts2 check bytes
    split at h
    · rename_i checked
      obtain ⟨rfl, rfl, rfl⟩ := checked
      split at h
      · cases h
      · rename_i rate coded
        dsimp only at h
        split at h
        · rename_i range
          cases h
          obtain ⟨low, high, pan, pan', tilt, tilt'⟩ := of_decide_eq_true range
          have code : (BitVec.ofNat 16 (number16 y1 y2)).toNat = number16 y1 y2 := by
            rw [BitVec.toNat_ofNat]; exact Nat.mod_eq_of_lt (number16_lt y1 y2)
          refine ⟨c, r.toNat, ?_, rfl, Nat.le_of_lt_succ (number16_lt p1 p2), Nat.le_of_lt_succ (number16_lt q1 q2), low, high,
            pan, pan', tilt, tilt', rateOfCode_iff.mpr coded⟩
          rw [bytes, lineBytes_toNat]
          simp only [code, bytes16_number16, BitVec.ofNat_toNat, BitVec.setWidth_eq]
          rfl
        · cases h
    · cases h
  · cases h

/-- R43, R160: the CAPS written for what it declares is judged good. -/
theorem judgeCaps_of_goodCaps {a : Nat} {reply : List RxChar} {caps : Caps} (address : a < 256)
    (h : GoodCaps a reply caps) : judgeCaps a reply = some caps := by
  obtain ⟨c, code, bytes, conditions, pan, tilt, low, high, ps, ps', ts, ts', rate⟩ := h
  have coded := rateOfCode_iff.mp rate
  have small : code % 256 = code := Nat.mod_eq_of_lt (by
    rcases rate with ⟨rfl, -⟩ | ⟨rfl, -⟩ | ⟨rfl, -⟩ | ⟨rfl, -⟩ <;> decide)
  have typeCode : BitVec.ofNat 16 (number16 (BitVec.ofNat 8 (caps.typeCode.toNat / 256)) (BitVec.ofNat 8 caps.typeCode.toNat)) =
      caps.typeCode := by
    rw [number16_bytes16 (by omega), BitVec.ofNat_toNat, BitVec.setWidth_eq]
  have emitters : caps.emitters % 256 = caps.emitters := Nat.mod_eq_of_lt (by omega)
  have own : a % 256 = a := Nat.mod_eq_of_lt address
  have range : caps.inRange = true := decide_eq_true ⟨low, high, ps, ps', ts, ts'⟩
  unfold judgeCaps
  rw [bytes]
  simp only [lineBytes, bytes16, List.cons_append, List.nil_append, BitVec.toNat_ofNat, own, small, coded, emitters,
    number16_bytes16 pan, number16_bytes16 tilt, typeCode, number16_bytes16 (ps'.trans (by decide)),
    number16_bytes16 (ts'.trans (by decide)), true_and, if_true]
  have whole : { caps with conditions := ConditionSet.ofByte c } = caps := by rw [ConditionSet.ofByte, ← conditions]
  rw [whole, if_pos range]

theorem judgeCaps_eq_some {a : Nat} {reply : List RxChar} {caps : Caps} (address : a < 256) :
    judgeCaps a reply = some caps ↔ GoodCaps a reply caps := ⟨goodCaps_of_judgeCaps, judgeCaps_of_goodCaps address⟩

end Sys2Proof.Machine
end

section
/-! PROOF. The end of an exchange with no disable pending (R137, R141), and how a POLL exchange ends (R33, R52, R140). -/

namespace Sys2Proof.Machine

/-! ### The end of an exchange -/

/-- Before an exchange is over, its end may have changed of the lines what the line's own effects are. -/
structure LineKept (s u : State) (ln : LineNo) : Prop where
  micros : u.micros = s.micros
  others : ∀ k, k ≠ ln → u.line k = s.line k
  own : u.line ln =
    { s.line ln with
      seq := (u.line ln).seq
      effective := (u.line ln).effective
      conditions := (u.line ln).conditions
      enrol := (u.line ln).enrol
      joinSuspended := (u.line ln).joinSuspended }

theorem LineKept.refl (s : State) (ln : LineNo) : LineKept s s ln := ⟨rfl, fun _ _ => rfl, rfl⟩

theorem LineKept.mapEnrol (s : State) (ln : LineNo) (change : EnrolRecord → EnrolRecord) :
    LineKept s (s.mapEnrol ln change) ln :=
  ⟨rfl, fun _ hk => State.setLine_line_ne _ _ hk, by rw [State.mapEnrol, State.setLine_line_self]⟩

theorem LineKept.putCondition (s : State) (ln : LineNo) (c : LineCondition) (b : Bool) :
    LineKept s (s.putCondition ln c b) ln where
  micros := by rw [State.putCondition_frame]
  others k hk := by rw [State.putCondition_line, if_neg hk]
  own := by rw [State.putCondition_line, if_pos rfl]

theorem LineKept.endOperation (s : State) (ln : LineNo) (o : EnrolOutcome) : LineKept s (s.endOperation ln o) ln where
  micros := by rw [State.endOperation_frame]; rfl
  others k hk := by rw [State.endOperation_frame]; exact State.setLine_line_ne _ _ hk
  own := by
    have line : (s.endOperation ln o).line ln =
        { s.line ln with enrol := EnrolRecord.atRest (s.line ln).enrol.bound, seq := .idle } := by
      rw [State.endOperation_frame]; exact State.setLine_line_self ..
    rw [line]

/-- What the end of an exchange itself leaves of the line's own effects. -/
structure EffectsKept (u t : State) (ln : LineNo) : Prop where
  frame : t = { u with lines := t.lines }
  effective : (t.line ln).effective = (u.line ln).effective
  conditions : (t.line ln).conditions = (u.line ln).conditions
  enrol : (t.line ln).enrol = (u.line ln).enrol
  joinSuspended : (t.line ln).joinSuspended = (u.line ln).joinSuspended
  requested : (t.line ln).requested = (u.line ln).requested

/-- R137, R141: with no disable pending an exchange that is over leaves its line at rest, with its effects. -/
theorem LineKept.closed {s u : State} {ln : LineNo} {x : Exchange} (kept : LineKept s u ln)
    (pending : (s.line ln).disablePending = false) (flight : (s.line ln).exchange = some x) :
    ExchangeOver s (u.endExchange ln) ln x ∧ EffectsKept u (u.endExchange ln) ln := by
  obtain ⟨micros, others, own⟩ := kept
  have pending' : (u.line ln).disablePending = false := by rw [own]; exact pending
  have flight' : (u.line ln).exchange = some x := by rw [own]; exact flight
  rw [State.endExchange_not_pending pending' flight']
  refine ⟨⟨fun k hk => (State.setLine_line_ne _ _ hk).trans (others k hk), ?_⟩, rfl, ?_, ?_, ?_, ?_, ?_⟩
  · rw [State.setLine_line_self, micros]
    generalize u.line ln = r at own
    exact congrArg (fun r' : LineRec => { r' with
      exchange := none, restRate := x.rate, restedAt := s.micros + 2 * x.rate.charMicros
      seq := if r.enrol.operation = Operation.none then .idle else .enrolling }) own
  all_goals rw [State.setLine_line_self]

/-- An end whose one effect is on the enrolment record. -/
theorem State.mapEnrol_closed {s : State} {ln : LineNo} {x : Exchange} (pending : (s.line ln).disablePending = false)
    (flight : (s.line ln).exchange = some x) (change : EnrolRecord → EnrolRecord) :
    ∀ t, t = (s.mapEnrol ln change).endExchange ln →
      ExchangeOver s t ln x ∧ t = { s with lines := t.lines } ∧ (t.line ln).effective = (s.line ln).effective ∧
        (t.line ln).joinSuspended = (s.line ln).joinSuspended ∧ (t.line ln).conditions = (s.line ln).conditions ∧
        (t.line ln).enrol = change (s.line ln).enrol := by
  rintro t rfl
  obtain ⟨closed, effects⟩ := (LineKept.mapEnrol s ln change).closed pending flight
  have line : (s.mapEnrol ln change).line ln = { s.line ln with enrol := change (s.line ln).enrol } :=
    State.setLine_line_self ..
  exact ⟨closed, effects.frame, by rw [effects.effective, line], by rw [effects.joinSuspended, line],
    by rw [effects.conditions, line], by rw [effects.enrol, line]⟩

/-! ### Replies to a POLL (R33, R52, R140) -/

section Poll
variable {s : State} {ln : LineNo} {x : Exchange} {n : SlotNo} {a : Nat}

theorem exec_replyEnd_of_poll (running : s.inReset = false) (flight : (s.line ln).exchange = some x)
    (window : x.phase = .window) (frame : x.frame = .poll n a) (reply : List RxChar) :
    exec (.replyEnd ln reply) s =
      .next (if s.micros ≤ x.ends then (s.applyOutcome ln (.poll n a) (judgeAck a reply)).endExchange ln else s) := by
  refine (congrArg Host.Outcome.next (State.whenRunning_of_running running _)).trans (congrArg _ ?_)
  simp only [State.endReply, flight, frame, LineFrame.slotAddress, window, true_and]

theorem exec_replyWindowExpiry_of_poll (running : s.inReset = false) (flight : (s.line ln).exchange = some x)
    (window : x.phase = .window) (frame : x.frame = .poll n a) :
    exec (.replyWindowExpiry ln) s = .next (if x.ends ≤ s.micros then s.endExchange ln else s) := by
  refine (congrArg Host.Outcome.next (State.whenRunning_of_running running _)).trans (congrArg _ ?_)
  simp only [State.expireReply, flight, frame, LineFrame.slotAddress, window, true_and]
  rfl

/-- R33: a good ACK finds its slot MISSING on the line, or changes nothing. -/
theorem State.applyOutcome_poll_good (s : State) (ln : LineNo) (n : SlotNo) (a : Nat) (c : ConditionSet) (p q : Nat) :
    s.applyOutcome ln (.poll n a) (.good c p q) =
      ((s.exchangeSlot ln n false).map fun f => s.ackPoll ln n f c p q).getD s := by
  unfold State.applyOutcome State.applyPoll
  rw [if_neg (fun e => nomatch e)]
  dsimp only
  cases s.exchangeSlot ln n false <;> rfl

theorem State.applyOutcome_poll_bad (s : State) (ln : LineNo) (n : SlotNo) (a : Nat) :
    s.applyOutcome ln (.poll n a) .bad = s := rfl

theorem State.applyOutcome_poll_wrongAddress (s : State) (ln : LineNo) (n : SlotNo) (a : Nat) :
    s.applyOutcome ln (.poll n a) .wrongAddress = s.putCondition ln .wrongAddress true := rfl

/-- R53, R151: a notice to all links and the notices of a change of conditions after it. -/
theorem State.raiseWithConditions_spec (v : State) (y : Notice) (n : SlotNo) (stored reported : ConditionSet) :
    ∀ w, w = (v.raiseAll y).raiseConditions n stored reported →
      w = { v with links := w.links } ∧
        ∀ k, w.link k = (conditionChanges n stored reported).foldl LinkRec.receive ((v.link k).receive y) := by
  rintro w rfl
  refine ⟨?_, fun k => ?_⟩
  · unfold State.raiseConditions
    rw [State.raiseAll_foldl_frame, State.raiseAll_frame]
  · rw [State.raiseConditions_told, State.raiseAll_link, conditionNotices_eq]

/-- R52, R53, R125, R142, R151: what a good ACK to a POLL changes. -/
theorem State.ackPoll_spec (s : State) (ln : LineNo) (n : SlotNo) (f : Fixture) (c : ConditionSet) (p q : Nat) :
    ∀ u, u = s.ackPoll ln n f c p q →
      u = { s with links := u.links, slots := u.slots, lines := u.lines } ∧ (∀ m, m ≠ n → u.slot m = s.slot m) ∧
        u.slot n =
          { s.slot n with
            fixture := some (f.returned c p q s.stampNow), flags := { (s.slot n).flags with changed := true } } ∧
        (∀ k, u.link k = (conditionChanges n f.conditions c).foldl LinkRec.receive
          ((s.link k).receive (.fixtureJoined n ln f.address f.typeCode true))) ∧
        (∀ k, k ≠ ln → u.line k = s.line k) ∧ u.line ln = { s.line ln with effective := u.slowest ln } := by
  rintro u rfl
  rw [State.ackPoll_eq]
  obtain ⟨v, back⟩ : ∃ v, v = (s.setSlot n { s.slot n with fixture := some (f.returned c p q s.stampNow) }).setChanged n :=
    ⟨_, rfl⟩
  have changed : ∀ m, v.slot m =
      if m = n then { s.slot n with fixture := some (f.returned c p q s.stampNow)
                                    flags := { (s.slot n).flags with changed := true } } else s.slot m := fun m => by
    rw [back, State.setChanged, State.setSlot_slot, State.setSlot_slot_self]
    split
    · rfl
    · exact State.setSlot_slot_ne _ _ ‹_›
  have frame : v = { s with slots := v.slots } := by rw [back]; rfl
  rw [← back]
  obtain ⟨heard, told⟩ :=
    v.raiseWithConditions_spec (.fixtureJoined n ln f.address f.typeCode true) n f.conditions c _ rfl
  generalize (v.raiseAll (.fixtureJoined n ln f.address f.typeCode true)).raiseConditions n f.conditions c = w
    at heard told
  have slot : ∀ m, w.slot m = v.slot m := fun m => by rw [heard]; rfl
  have line : ∀ k, w.line k = s.line k := fun k => by rw [heard, frame]; rfl
  have whole : w = { s with links := w.links, slots := w.slots } := by
    rw [heard]; exact congrArg (fun v : State => { v with links := w.links }) frame
  have rate : State.slowest (w.recompute ln) ln = w.slowest ln :=
    State.slowest_congr ln rfl (by rw [State.recompute, State.setLine_line_self])
  refine ⟨congrArg (fun v : State => { v with lines := (w.recompute ln).lines }) whole,
    fun m hm => (slot m).trans ((changed m).trans (if_neg hm)), (slot n).trans ((changed n).trans (if_pos rfl)),
    fun k => (told k).trans (by rw [frame]; rfl), fun k hk => (State.setLine_line_ne _ _ hk).trans (line k), ?_⟩
  rw [rate, State.recompute, State.setLine_line_self, line]

/-- R33, R52: a good ACK in time returns its MISSING slot. -/
theorem exec_replyEnd_of_return (running : s.inReset = false) (pending : (s.line ln).disablePending = false)
    (flight : (s.line ln).exchange = some x) (window : x.phase = .window) (frame : x.frame = .poll n a) (address : a < 64)
    {f : Fixture} {reply : List RxChar} {c : Byte} {p q : Nat} (intime : s.micros ≤ x.ends) (hp : p ≤ 65535)
    (hq : q ≤ 65535) (ack : reply.take 8 = ackOf a c p q) (bound : (s.slot n).fixture = some f) (line : f.line = ln)
    (missing : f.online = false) :
    ∃ t, exec (.replyEnd ln reply) s = .next t ∧ ExchangeOver s t ln x ∧
      EffectsKept (s.ackPoll ln n f (ConditionSet.ofByte c) p q) t ln := by
  obtain ⟨whole, -, -, -, others, own⟩ := s.ackPoll_spec ln n f (ConditionSet.ofByte c) p q _ rfl
  have ended := exec_replyEnd_of_poll running flight window frame reply
  rw [if_pos intime, judgeAck_good (by omega) hp hq ack, State.applyOutcome_poll_good,
    State.exchangeSlot_eq_some.mpr ⟨bound, line, missing⟩] at ended
  have kept : LineKept s (s.ackPoll ln n f (ConditionSet.ofByte c) p q) ln := ⟨by rw [whole], others, by rw [own]⟩
  exact ⟨_, ended, kept.closed pending flight⟩

/-- R33, R140: every end of a POLL exchange but a return and a wrong address ends it with no other effect. -/
theorem exec_pollEnd_of_no_effect (running : s.inReset = false) (flight : (s.line ln).exchange = some x)
    (window : x.phase = .window) (frame : x.frame = .poll n a) (address : a < 64) {t' : Host.Outcome State Fault Refusal}
    (h : (∃ reply c p q, s.micros ≤ x.ends ∧ p ≤ 65535 ∧ q ≤ 65535 ∧ reply.take 8 = ackOf a c p q ∧
        (∀ f, (s.slot n).fixture = some f → f.line ≠ ln ∨ f.online = true) ∧ exec (.replyEnd ln reply) s = t') ∨
      (∃ reply, s.micros ≤ x.ends ∧ ¬WrongAck a reply ∧ (∀ c p q, reply.take 8 ≠ ackOf a c p q) ∧
        exec (.replyEnd ln reply) s = t') ∨
      (x.ends ≤ s.micros ∧ exec (.replyWindowExpiry ln) s = t')) : t' = .next (s.endExchange ln) := by
  rcases h with ⟨reply, c, p, q, intime, hp, hq, ack, gone, rfl⟩ | ⟨reply, intime, other, own, rfl⟩ | ⟨expired, rfl⟩
  · have none : s.exchangeSlot ln n false = none := by
      refine Option.eq_none_iff_forall_ne_some.mpr fun f found => ?_
      obtain ⟨bound, line, missing⟩ := State.exchangeSlot_eq_some.mp found
      rcases gone f bound with off | online
      · exact off line
      · rw [missing] at online; cases online
    rw [exec_replyEnd_of_poll running flight window frame, if_pos intime, judgeAck_good (by omega) hp hq ack,
      State.applyOutcome_poll_good, none]
    rfl
  · rw [exec_replyEnd_of_poll running flight window frame, if_pos intime, judgeAck_bad own other,
      State.applyOutcome_poll_bad]
  · rw [exec_replyWindowExpiry_of_poll running flight window frame, if_pos expired]

end Poll

/-- Settles O48: by how the reply is judged, and whether its slot is still MISSING on the line. -/
theorem pollRepliesReturnFixtures : Obligations.PollRepliesReturnFixtures := by
  intro s ln x n a running pending flight window frame address
  refine ⟨fun f reply c p q intime hp hq ack bound line missing => ?_, fun t' ends => ?_, fun reply intime wrong => ?_,
    fun late reply => ?_, fun early => ?_⟩
  · obtain ⟨t, ended, closed, effects⟩ :=
      exec_replyEnd_of_return running pending flight window frame address intime hp hq ack bound line missing
    obtain ⟨whole, slots, slot, links, -, own⟩ := s.ackPoll_spec ln n f (ConditionSet.ofByte c) p q _ rfl
    generalize s.ackPoll ln n f (ConditionSet.ofByte c) p q = u at effects whole slots slot links own
    have atSlot : ∀ m, t.slot m = u.slot m := fun m => by rw [effects.frame]; rfl
    have rate : t.slowest ln = u.slowest ln :=
      State.slowest_congr ln (by rw [effects.frame]) effects.requested
    refine ⟨t, ended, closed, ?_, fun m hm => (atSlot m).trans (slots m hm), (atSlot n).trans slot, ?_, ?_, ?_, ?_,
      fun k => ?_⟩
    · rw [effects.frame]; exact congrArg (fun v : State => { v with lines := t.lines }) whole
    · rw [effects.effective, rate, own]
    · rw [effects.enrol, own]
    · rw [effects.conditions, own]
    · rw [effects.joinSuspended, own]
    · rw [← links, effects.frame]; rfl
  · obtain ⟨closed, effects⟩ := (LineKept.refl s ln).closed pending flight
    exact ⟨_, exec_pollEnd_of_no_effect running flight window frame address ends, closed, effects.frame, effects.effective,
      effects.conditions, effects.enrol, effects.joinSuspended⟩
  · obtain ⟨closed, effects⟩ := (LineKept.putCondition s ln .wrongAddress true).closed pending flight
    have ended := exec_replyEnd_of_poll running flight window frame reply
    rw [if_pos intime, judgeAck_of_wrongAck wrong, State.applyOutcome_poll_wrongAddress] at ended
    have told := s.putCondition_told ln .wrongAddress true
    have line : (s.putCondition ln .wrongAddress true).line ln =
        { s.line ln with conditions := { (s.line ln).conditions with wrongAddress := true } } := by
      rw [State.putCondition_line, if_pos rfl]; rfl
    have whole := s.putCondition_frame ln .wrongAddress true
    generalize s.putCondition ln .wrongAddress true = u at closed effects ended told line whole
    have link : ∀ k, (u.endExchange ln).link k = u.link k := fun k => by rw [effects.frame]; rfl
    refine ⟨_, ended, closed, fun k => ?_, ?_, ?_, ?_, ?_, ?_, fun k => ?_⟩
    · rw [link]; exact told.hear k
    · rw [effects.frame]; exact congrArg (fun v : State => { v with lines := (u.endExchange ln).lines }) whole
    · rw [effects.effective, line]
    · rw [effects.conditions, line]
    · rw [effects.enrol, line]
    · rw [effects.joinSuspended, line]
    · rw [link]; exact told.hears k
  · exact (exec_replyEnd_of_poll running flight window frame reply).trans (congrArg _ (if_neg (Nat.not_le.mpr late)))
  · exact (exec_replyWindowExpiry_of_poll running flight window frame).trans (congrArg _ (if_neg (Nat.not_le.mpr early)))

end Sys2Proof.Machine
end

section
/-! PROOF. The end of an arbitration window (R22, R39, R41, R42). -/

namespace Sys2Proof.Machine

section
variable {s : State} {ln : LineNo} {x : BitVec 40} {a : Nat}

/-! ### The address offered (R22, R42) -/

/-- R22: in a sound table an address is reserved by another unique ID. -/
theorem State.mem_reservedFor_iff (table : s.TableSound) :
    a ∈ s.reservedFor ln x ↔ ∃ n f, (s.slot n).fixture = some f ∧ f.line = ln ∧ f.address = a ∧ f.uniqueId ≠ x := by
  refine State.mem_reservedFor.trans (exists_congr fun n => exists_congr fun f => and_congr_right fun bound => ?_)
  refine and_congr_right fun _ => and_congr_right fun _ => not_congr ⟨fun own => ?_, fun own => ?_⟩
  · obtain ⟨g, hg, id⟩ := State.slotOfId_spec own
    rw [bound] at hg; cases hg
    exact id
  · rw [← own]; exact State.slotOfId_eq table bound

theorem State.lowestAddress_eq_some (low : 1 ≤ a) (high : a ≤ 32) (free : a ∉ s.reservedFor ln x)
    (lowest : ∀ b, 1 ≤ b → b < a → b ∈ s.reservedFor ln x) : s.lowestAddress ln x = some a := by
  have found : (List.range 32).find? (fun b => decide (b + 1 ∉ s.reservedFor ln x)) = some (a - 1) := by
    refine List.find?_range_eq_some.mpr ⟨?_, List.mem_range.mpr (by omega), fun b hb => ?_⟩
    · rw [Nat.sub_add_cancel low]; exact decide_eq_true free
    · simpa using lowest (b + 1) (by omega) (by omega)
  unfold State.lowestAddress
  rw [List.find?_map]
  show ((List.range 32).find? (fun b => decide (b + 1 ∉ s.reservedFor ln x))).map (· + 1) = some a
  rw [found, Option.map_some, Nat.sub_add_cancel low]

end

/-! ### The window's end (R39, R41, R42) -/

/-- R42: a captured ID is offered an address. -/
def EnrolRecord.offering (e : EnrolRecord) (samples : BitVec 40) (a : Nat) : EnrolRecord :=
  { e with captured := some samples, offered := some a, attempt := some 1, subState := some .assigning }

/-- R42: a captured ID for which no address is free is given up. -/
def EnrolRecord.givingUp (e : EnrolRecord) (samples : BitVec 40) : EnrolRecord :=
  { e with captured := some samples, giveUp := some { address := 63, condition := .tableFull } }

/-- The enrolment record after samples other than all ones. -/
def State.capturing (s : State) (ln : LineNo) (samples : BitVec 40) (e : EnrolRecord) : EnrolRecord :=
  match s.lowestAddress ln samples with
  | some a => e.offering samples a
  | none => e.givingUp samples

section
variable {s : State} {ln : LineNo} {x : Exchange}

theorem exec_arbitrationEnd (running : s.inReset = false) (flight : (s.line ln).exchange = some x) (frame : x.frame = .call)
    (phase : x.phase = .arbitration) (ended : x.ends ≤ s.micros) (samples : BitVec 40) :
    exec (.arbitrationEnd ln samples) s = .next
      (if samples = BitVec.allOnes 40 then (s.endOperation ln .complete).endExchange ln
      else (s.mapEnrol ln (s.capturing ln samples)).endExchange ln) := by
  have closed := State.exchangeOver_eq_some.mpr ⟨x, flight, frame, phase, ended⟩
  refine (congrArg Host.Outcome.next (State.whenRunning_of_running running _)).trans (congrArg _ ?_)
  simp only [State.endArbitration, closed]
  refine if_congr Iff.rfl rfl ?_
  cases h : s.lowestAddress ln samples with
  | none => simp only [State.mapEnrol, State.capturing, h, EnrolRecord.givingUp]
  | some a => simp only [State.mapEnrol, State.capturing, h, EnrolRecord.offering]

theorem exec_arbitrationEnd_early (running : s.inReset = false) (flight : (s.line ln).exchange = some x)
    (early : s.micros < x.ends) (samples : BitVec 40) : exec (.arbitrationEnd ln samples) s = .next s := by
  have runs : s.exchangeOver ln .arbitration = none := by
    simp only [State.exchangeOver, flight]
    exact if_neg fun h => absurd h.2 (Nat.not_le.mpr early)
  refine (congrArg Host.Outcome.next (State.whenRunning_of_running running _)).trans (congrArg _ ?_)
  simp only [State.endArbitration, runs]

end

/-- Settles O50: all ones end the operation, and other samples are offered the lowest address free for them. -/
theorem arbitrationCapturesAnId : Obligations.ArbitrationCapturesAnId := by
  intro s ln x samples table running pending flight frame phase
  refine ⟨fun ended => ?_, fun early => exec_arbitrationEnd_early running flight early samples⟩
  have taken := exec_arbitrationEnd running flight frame phase ended samples
  by_cases ones : samples = BitVec.allOnes 40
  · rw [if_pos ones] at taken
    obtain ⟨closed, effects⟩ := (LineKept.endOperation s ln .complete).closed pending flight
    have whole := s.endOperation_frame ln .complete
    have link := s.endOperation_link ln .complete
    have line : (s.endOperation ln .complete).line ln =
        { s.line ln with enrol := EnrolRecord.atRest (s.line ln).enrol.bound, seq := .idle } := by
      rw [whole]; exact State.setLine_line_self ..
    generalize s.endOperation ln .complete = u at taken closed effects whole link line
    refine ⟨_, taken, closed, ?_, by rw [effects.effective, line], by rw [effects.conditions, line],
      by rw [effects.joinSuspended, line], fun _ => ⟨by rw [effects.enrol, line], fun k => ?_⟩, fun no => absurd ones no⟩
    · rw [effects.frame, whole]; rfl
    · have told : (u.endExchange ln).link k = u.link k := by rw [effects.frame]; rfl
      rw [told, link]
      by_cases nobody : (s.line ln).enrol.operation = .joining ∧ (s.line ln).enrol.bound = 0
      · rw [if_pos ⟨nobody.1, rfl, nobody.2⟩, if_pos nobody, if_neg List.not_mem_nil]
      · rw [if_neg fun h => nobody ⟨h.1, h.2.2⟩, if_neg nobody, if_pos (by cases k <;> decide)]
  · rw [if_neg ones] at taken
    obtain ⟨closed, kept, effective, joining, conditions, enrol⟩ :=
      State.mapEnrol_closed pending flight (s.capturing ln samples) _ rfl
    refine ⟨_, taken, closed, by rw [kept], effective, conditions, joining, fun yes => absurd yes ones,
      fun _ => ⟨by rw [kept], ?_, ?_⟩⟩
    · intro a low high free lowest
      have offered : s.lowestAddress ln samples = some a := by
        refine State.lowestAddress_eq_some low high (fun reserved => ?_) fun b hb hba => ?_
        · obtain ⟨n, f, bound, on, address, other⟩ := (State.mem_reservedFor_iff table).mp reserved
          exact other (free n f bound on address)
        · exact (State.mem_reservedFor_iff table).mpr (lowest b hb hba)
      rw [enrol, State.capturing, offered]
      rfl
    · intro full
      have none : s.lowestAddress ln samples = none :=
        State.lowestAddress_none.mpr fun a low high => (State.mem_reservedFor_iff table).mpr (full a low high)
      rw [enrol, State.capturing, none]
      rfl

end Sys2Proof.Machine
end

section
/-! PROOF. CAPS replies: bindings, refusals and failures (R21, R23, R43 to R45, R160). -/

namespace Sys2Proof.Machine

section
variable {s : State} {ln : LineNo} {x : Exchange} {u : BitVec 40} {a : Nat} {reply : List RxChar} {caps : Caps}

/-! ### The commands of an ASSIGN exchange (R43, R139) -/

theorem exec_capsReceived (running : s.inReset = false) (opened : s.openAssign ln = some (x, u, a)) (reply : List RxChar) :
    exec (.capsReceived ln reply) s = .next
      ((judgeCaps a reply).elim s fun c => if s.micros ≤ x.ends then s.receiveCaps ln u a c else s) := by
  refine (congrArg Host.Outcome.next (State.whenRunning_of_running running _)).trans (congrArg _ ?_)
  simp only [opened]
  cases judgeCaps a reply <;> rfl

theorem exec_capsFailure (running : s.inReset = false) (opened : s.openAssign ln = some (x, u, a)) (reply : List RxChar) :
    exec (.capsFailure ln reply) s = .next
      ((judgeCaps a reply).elim (if s.micros ≤ x.ends then s.capsFailed ln a else s) fun _ => s) := by
  refine (congrArg Host.Outcome.next (State.whenRunning_of_running running _)).trans (congrArg _ ?_)
  simp only [opened]
  cases judgeCaps a reply <;> rfl

theorem exec_capsWindowExpiry (running : s.inReset = false) (opened : s.openAssign ln = some (x, u, a)) :
    exec (.capsWindowExpiry ln) s = .next (if x.ends ≤ s.micros then s.capsFailed ln a else s) := by
  refine (congrArg Host.Outcome.next (State.whenRunning_of_running running _)).trans (congrArg _ ?_)
  simp only [opened]

theorem judgeCaps_eq_none (address : a < 256) (h : ∀ caps, ¬GoodCaps a reply caps) : judgeCaps a reply = none :=
  Option.eq_none_iff_forall_ne_some.mpr fun caps good => h caps ((judgeCaps_eq_some address).mp good)

/-! ### What a bind request is answered (R21, R22) -/

theorem State.bindAnswer_of_online (table : s.TableSound) {n : SlotNo} {f : Fixture} (bound : (s.slot n).fixture = some f)
    (id : f.uniqueId = u) (online : f.online = true) : s.bindAnswer ln u = .duplicate := by
  subst id
  unfold State.bindAnswer
  simp only [State.slotOfId_eq table bound, Slot.state_online.mpr ⟨f, bound, online⟩, if_true]

theorem State.bindAnswer_of_full (new : ∀ n f, (s.slot n).fixture = some f → f.uniqueId ≠ u)
    (full : ∀ n, (s.slot n).fixture.isSome = true) : s.bindAnswer ln u = .tableFull := by
  have none : allSlots.find? (fun n => decide ((s.slot n).state = .free)) = none :=
    List.find?_eq_none.mpr fun n _ => by
      rw [decide_eq_true_iff, Slot.state_free]
      exact Option.isSome_iff_ne_none.mp (full n)
  unfold State.bindAnswer
  simp only [State.slotOfId_none.mpr new, none]

/-- R22: while its address is offered to the ID, the line has room for it. -/
theorem State.hasCapacity_of_offer (table : s.TableSound) (offers : s.OffersSound) (assigns : (s.line ln).Assigns u a) :
    s.hasCapacity ln u = true := by
  have count := table.length_le (ln := ln) (ns := s.othersOn ln u)
    (addresses := ((List.range 32).map (· + 1)).erase a) ((nodup_allSlots.filter _).filter _) fun n hn => by
      obtain ⟨on, other⟩ := List.mem_filter.mp hn
      obtain ⟨f, bound, line⟩ := State.mem_slotsOf.mp on
      refine ⟨f, bound, line, (List.mem_erase_of_ne fun same => of_decide_eq_true other ?_).mpr
        (mem_shortAddresses.mpr (table.in_range n f bound).address_range)⟩
      rw [← offers ln u a assigns.captured assigns.offered n f bound line same]
      exact State.slotOfId_eq table bound
  rw [List.length_erase_of_mem (mem_shortAddresses.mpr assigns.range), List.length_map, List.length_range] at count
  exact decide_eq_true (by omega)

theorem State.bindAnswer_of_missing (table : s.TableSound) (room : s.hasCapacity ln u = true) {n : SlotNo} {f : Fixture}
    (bound : (s.slot n).fixture = some f) (id : f.uniqueId = u) (missing : f.online = false) :
    s.bindAnswer ln u = .returning n := by
  subst id
  have off : (s.slot n).state ≠ .online := fun online => by
    rw [Slot.state_missing.mpr ⟨f, bound, missing⟩] at online; cases online
  unfold State.bindAnswer
  simp only [State.slotOfId_eq table bound, if_neg off, room, if_true]

theorem State.bindAnswer_of_free (room : s.hasCapacity ln u = true)
    (new : ∀ m f, (s.slot m).fixture = some f → f.uniqueId ≠ u) {n : SlotNo} (free : (s.slot n).fixture = none)
    (lowest : ∀ m, m < n → (s.slot m).fixture.isSome = true) : s.bindAnswer ln u = .new n := by
  have found : allSlots.find? (fun n => decide ((s.slot n).state = .free)) = some n := by
    refine find?_finRange_eq_some.mpr ⟨decide_eq_true (Slot.state_free.mpr free), fun m hm => ?_⟩
    rw [decide_eq_false_iff_not, Slot.state_free]
    exact Option.isSome_iff_ne_none.mp (lowest m hm)
  unfold State.bindAnswer
  simp only [State.slotOfId_none.mpr new, found, room, if_true]

/-! ### The entry of a type (R23) -/

theorem State.typeFor_of_held {code : BitVec 16} {k : Fin 16} (h : s.entryOf code = some k) :
    s.typeFor code = (s, some k) := by
  simp only [State.typeFor, h]

theorem State.typeFor_of_unused {code : BitVec 16} {k : Fin 16} (unheld : s.entryOf code = none)
    (unused : s.unusedEntry = some k) :
    s.typeFor code = (s.setTypeEntry k { code := code, matrix := defaultMatrix }, some k) := by
  simp only [State.typeFor, unheld, unused]

theorem State.typeFor_of_full {code : BitVec 16} (unheld : s.entryOf code = none) (full : s.unusedEntry = none) :
    s.typeFor code = (s, none) := by
  simp only [State.typeFor, unheld, full]

end

/-! ### Refusals and failures (R43, R45) -/

theorem any_holds_iff {s : State} {u : BitVec 40} :
    allSlots.any (fun n => ((s.slot n).fixture.map (·.uniqueId)) == some u) = true ↔
      ∃ n f, (s.slot n).fixture = some f ∧ f.uniqueId = u := by
  simp only [List.any_eq_true, mem_allSlots, true_and, beq_iff_eq, Option.map_eq_some_iff]

/-- Settles O52: by whether the reply is good, whether it is in time, and what a bind request is answered. -/
theorem refusedAndFailedCapsChangeNoSlot : Obligations.RefusedAndFailedCapsChangeNoSlot := by
  intro s ln x u a lines table running pending flight frame window
  have opened := State.openAssign_eq_some.mpr ⟨flight, frame, window⟩
  have assigns := (lines running ln).assigns flight frame
  obtain ⟨-, high⟩ := assigns.range
  have address : a < 256 := by omega
  refine ⟨fun reply caps good intime refused => ?_, fun t' failed => ?_, fun reply bad => ?_, fun reply caps good => ?_,
    fun late reply => ⟨?_, ?_⟩, fun early => ?_⟩
  · have taken := exec_capsReceived running opened reply
    rw [judgeCaps_of_goodCaps address good, Option.elim_some, if_pos intime] at taken
    have answer : s.receiveCaps ln u a caps = s.refuseBinding ln a
        (if allSlots.any (fun n => ((s.slot n).fixture.map (·.uniqueId)) == some u) then .duplicateId else .tableFull) := by
      unfold State.receiveCaps
      rcases refused with ⟨n, f, bound, id, online⟩ | ⟨new, full⟩
      · simp only [State.bindAnswer_of_online table bound id online, any_holds_iff.mpr ⟨n, f, bound, id⟩, if_true]
      · have unheld : ¬allSlots.any (fun n => ((s.slot n).fixture.map (·.uniqueId)) == some u) = true := fun held => by
          obtain ⟨n, f, bound, id⟩ := any_holds_iff.mp held
          exact new n f bound id
        simp only [State.bindAnswer_of_full new full, if_neg unheld]
    rw [answer] at taken
    generalize (if allSlots.any (fun n => ((s.slot n).fixture.map (·.uniqueId)) == some u) then
      LineCondition.duplicateId else .tableFull) = condition at taken
    obtain ⟨closed, kept, effective, joining, conditions, enrol⟩ :=
      State.mapEnrol_closed pending flight _ (s.refuseBinding ln a condition) rfl
    exact ⟨_, taken, closed, kept, effective, joining, conditions, condition, enrol, rfl⟩
  · have taken : t' = .next (s.capsFailed ln a) := by
      rcases failed with ⟨reply, bad, intime, rfl⟩ | ⟨expired, rfl⟩
      · rw [exec_capsFailure running opened reply, judgeCaps_eq_none address bad, Option.elim_none, if_pos intime]
      · rw [exec_capsWindowExpiry running opened, if_pos expired]
    obtain ⟨closed, kept, effective, joining, conditions, enrol⟩ :=
      State.mapEnrol_closed pending flight _ (s.capsFailed ln a) rfl
    exact ⟨_, taken, closed, kept, effective, joining, conditions, enrol⟩
  · rw [exec_capsReceived running opened, judgeCaps_eq_none address bad, Option.elim_none]
  · rw [exec_capsFailure running opened, judgeCaps_of_goodCaps address good, Option.elim_some]
  · rw [exec_capsReceived running opened]
    cases judgeCaps a reply with
    | none => rfl
    | some c => exact congrArg _ (if_neg (Nat.not_le.mpr late))
  · rw [exec_capsFailure running opened]
    cases judgeCaps a reply with
    | none => exact congrArg _ (if_neg (Nat.not_le.mpr late))
    | some c => rfl
  · rw [exec_capsWindowExpiry running opened, if_neg (Nat.not_le.mpr early)]

end Sys2Proof.Machine
end

section
/-! PROOF. A good CAPS binds the captured ID (R19, R21, R23, R44, R53). -/

namespace Sys2Proof.Machine

section
variable {s : State} {ln : LineNo} {x : Exchange} {u : BitVec 40} {a : Nat} {caps : Caps} {n : SlotNo}

/-- R21, R44: the slot that the captured ID is bound into. -/
theorem State.receiveCaps_of_slot (table : s.TableSound) (offers : s.OffersSound) (assigns : (s.line ln).Assigns u a)
    (slot : (∃ f, (s.slot n).fixture = some f ∧ f.uniqueId = u ∧ f.online = false) ∨
      ((∀ m f, (s.slot m).fixture = some f → f.uniqueId ≠ u) ∧ (s.slot n).fixture = none ∧
        ∀ m, m < n → (s.slot m).fixture.isSome = true)) (caps : Caps) :
    s.receiveCaps ln u a caps = s.bindOn ln n u a caps (s.slot n).fixture.isSome := by
  have room := State.hasCapacity_of_offer table offers assigns
  unfold State.receiveCaps
  rcases slot with ⟨f, bound, id, missing⟩ | ⟨new, free, lowest⟩
  · rw [State.bindAnswer_of_missing table room bound id missing, bound]; rfl
  · rw [State.bindAnswer_of_free room new free lowest, free]; rfl

/-- The state of a binding before its exchange is over. -/
def State.boundOn (s : State) (ln : LineNo) (n : SlotNo) (u : BitVec 40) (a : Nat) (c : Caps) (returned : Bool) : State :=
  ((s.bindInto n ln u a c returned).recompute ln).mapEnrol ln EnrolRecord.afterBinding

theorem State.bindOn_eq (s : State) (ln : LineNo) (n : SlotNo) (u : BitVec 40) (a : Nat) (c : Caps) (returned : Bool) :
    s.bindOn ln n u a c returned = (s.boundOn ln n u a c returned).endExchange ln := rfl

/-- R44, R142: what a binding changes before its exchange is over. -/
theorem State.boundOn_spec (s : State) (ln : LineNo) (n : SlotNo) (u : BitVec 40) (a : Nat) (c : Caps) (returned : Bool) :
    ∀ v, v = s.boundOn ln n u a c returned →
      v = { s with links := v.links, slots := v.slots, types := v.types, lines := v.lines } ∧
        v.types = (s.typeFor c.typeCode).1.types ∧ v.slots = (s.bindInto n ln u a c returned).slots ∧
        v.links = (s.bindInto n ln u a c returned).links ∧
        (∀ k, k ≠ ln → v.line k = s.line k) ∧
        v.line ln = { s.line ln with effective := v.slowest ln, enrol := (s.line ln).enrol.afterBinding } := by
  rintro v rfl
  obtain ⟨frame, -, -⟩ := s.bindInto_frame n ln u a c returned
  unfold State.boundOn
  generalize s.bindInto n ln u a c returned = w at frame
  have line : ∀ k, w.line k = s.line k := fun k => by rw [frame]; rfl
  have own : ((w.recompute ln).mapEnrol ln EnrolRecord.afterBinding).line ln =
      { s.line ln with effective := w.slowest ln, enrol := (s.line ln).enrol.afterBinding } := by
    rw [State.mapEnrol, State.setLine_line_self, State.recompute, State.setLine_line_self, line]
  have types : w.types = (s.typeFor c.typeCode).1.types := by rw [frame]
  refine ⟨?_, types, rfl, rfl, fun k hk => ?_, ?_⟩
  · rw [← types] at frame
    exact congrArg
      (fun v : State => { v with lines := ((w.recompute ln).mapEnrol ln EnrolRecord.afterBinding).lines }) frame
  · rw [State.mapEnrol, State.setLine_line_ne _ _ hk, State.recompute, State.setLine_line_ne _ _ hk, line]
  · have rate : State.slowest ((w.recompute ln).mapEnrol ln EnrolRecord.afterBinding) ln = w.slowest ln :=
      State.slowest_congr ln rfl (by rw [own, line])
    rw [rate, own]

end

/-- R23: the type index that a binding takes, and what becomes of the Type Table. -/
theorem State.typeFor_spec (s : State) (code : BitVec 16) {t : State}
    (h : t.types = (s.typeFor code).1.types) :
    (∀ k e, s.typeEntry k = some e → e.code = code →
      (∀ j d, j < k → s.typeEntry j = some d → d.code ≠ code) → (s.typeFor code).2 = some k ∧ t.types = s.types) ∧
    ((∀ k e, s.typeEntry k = some e → e.code ≠ code) →
      (∀ k, s.typeEntry k = none → (∀ j, j < k → (s.typeEntry j).isSome = true) →
        (s.typeFor code).2 = some k ∧ t.typeEntry k = some { code := code, matrix := defaultMatrix } ∧
          ∀ j, j ≠ k → t.typeEntry j = s.typeEntry j) ∧
      ((∀ k, (s.typeEntry k).isSome = true) → (s.typeFor code).2 = none ∧ t.types = s.types)) := by
  refine ⟨fun k e held same lowest => ?_, fun unheld => ⟨fun k unused lowest => ?_, fun full => ?_⟩⟩
  · rw [State.typeFor_of_held (State.entryOf_eq_some.mpr ⟨e, held, same, lowest⟩)] at h ⊢
    exact ⟨rfl, h⟩
  · rw [State.typeFor_of_unused (State.entryOf_eq_none.mpr unheld) (State.unusedEntry_eq_some.mpr ⟨unused, lowest⟩)] at h ⊢
    have entries : ∀ j, t.typeEntry j = if j = k then some { code := code, matrix := defaultMatrix } else s.typeEntry j :=
      fun j => by rw [← State.setTypeEntry_typeEntry]; unfold State.typeEntry; rw [h]
    exact ⟨rfl, (entries k).trans (if_pos rfl), fun j hj => (entries j).trans (if_neg hj)⟩
  · rw [State.typeFor_of_full (State.entryOf_eq_none.mpr unheld) (State.unusedEntry_eq_none.mpr full)] at h ⊢
    exact ⟨rfl, h⟩

/-- Settles O51: the bind request is answered with the slot, and the binding's effects are kept to the end of the exchange. -/
theorem goodCapsBindTheFixture : Obligations.GoodCapsBindTheFixture := by
  intro s ln x u a reply caps n lines table offers running pending flight frame window good
  have opened := State.openAssign_eq_some.mpr ⟨flight, frame, window⟩
  have assigns := (lines running ln).assigns flight frame
  obtain ⟨-, high⟩ := assigns.range
  have judged := judgeCaps_of_goodCaps (by omega) good
  refine ⟨fun intime slot => ?_, fun late => ?_⟩
  · have taken := exec_capsReceived running opened reply
    rw [judged, Option.elim_some, if_pos intime, State.receiveCaps_of_slot table offers assigns slot,
      State.bindOn_eq] at taken
    obtain ⟨-, told, others⟩ := s.bindInto_frame n ln u a caps (s.slot n).fixture.isSome
    have bound := s.bindInto_slot n ln u a caps (s.slot n).fixture.isSome
    obtain ⟨whole, typed, slots, links, elsewhere, own⟩ := s.boundOn_spec ln n u a caps (s.slot n).fixture.isSome _ rfl
    generalize s.boundOn ln n u a caps (s.slot n).fixture.isSome = v at taken whole typed slots links elsewhere own
    generalize s.bindInto n ln u a caps (s.slot n).fixture.isSome = w at told others bound slots links
    obtain ⟨closed, effects⟩ := (LineKept.mk (by rw [whole]) elsewhere (by rw [own]) : LineKept s v ln).closed pending flight
    generalize v.endExchange ln = t at taken closed effects
    have atSlot : ∀ m, t.slot m = w.slot m := fun m => by
      have : t.slots = w.slots := by rw [effects.frame, ← slots]
      unfold State.slot; rw [this]
    have atLink : ∀ k, t.link k = w.link k := fun k => by
      have : t.links = w.links := by rw [effects.frame, ← links]
      unfold State.link; rw [this]
    have types : t.types = (s.typeFor caps.typeCode).1.types := by rw [effects.frame, ← typed]
    have rate : t.slowest ln = v.slowest ln := State.slowest_congr ln (by rw [effects.frame]) effects.requested
    obtain ⟨held, unheld⟩ := s.typeFor_spec caps.typeCode types
    refine ⟨t, (s.typeFor caps.typeCode).2, taken, closed, fun m hm => (atSlot m).trans (others m hm),
      (atSlot n).trans bound, held, unheld, by rw [effects.effective, rate, own], by rw [effects.conditions, own],
      by rw [effects.joinSuspended, own], by rw [effects.enrol, own]; rfl, fun k => ?_, ?_⟩
    · rw [atLink, told, conditionNotices_eq]
    · rw [effects.frame]; exact congrArg (fun v : State => { v with lines := t.lines }) whole
  · rw [exec_capsReceived running opened, judged, Option.elim_some, if_neg (Nat.not_le.mpr late)]

end Sys2Proof.Machine
end

section
/-! PROOF. Fixtures lost by a DROP or a disable, and a line that goes OFF (R39, R40, R50, R142, R147): the one
specification of each, which the statements on SET_LINE, DROP and disables share. -/

namespace Sys2Proof.Machine

/-! ### Fixtures lost (R50) -/

/-- R50: the FIXTURE_GONE of a slot, where a fixture is bound to it. -/
def State.goneNotice (s : State) (cause : GoneCause) (n : SlotNo) : Option Notice :=
  (s.slot n).fixture.map fun f => .fixtureGone n f.line f.address cause

theorem State.makeMissing_hears (s : State) (cause : GoneCause) (n : SlotNo) :
    Told s (s.makeMissing cause n) (fun _ => (s.goneNotice cause n).toList) := fun k => by
  unfold State.makeMissing State.goneNotice
  cases (s.slot n).fixture with
  | none => rfl
  | some f => exact State.raiseAll_link _ _ k

theorem State.makeMissing_foldl_hears (cause : GoneCause) (ns : List SlotNo) (nodup : ns.Nodup) (s : State) :
    Told s (ns.foldl (State.makeMissing · cause) s) (fun _ => ns.filterMap (s.goneNotice cause)) := by
  induction ns generalizing s with
  | nil => exact Told.of_links rfl
  | cons n rest ih =>
    obtain ⟨fresh, nodup⟩ := List.nodup_cons.mp nodup
    have later : rest.filterMap ((s.makeMissing cause n).goneNotice cause) = rest.filterMap (s.goneNotice cause) :=
      List.filterMap_congr fun m hm => by
        have other : m ≠ n := fun e => fresh (e ▸ hm)
        unfold State.goneNotice
        rw [State.makeMissing_slot, if_neg other]
    intro k
    rw [List.foldl_cons, ih nodup (s.makeMissing cause n) k, later, s.makeMissing_hears cause n k, ← List.foldl_append]
    cases h : s.goneNotice cause n <;> simp [h]

theorem allGone_eq (s : State) (ln : LineNo) (cause : GoneCause) :
    allGone s ln cause = (s.onlineOf ln).filterMap (s.goneNotice cause) := by
  unfold allGone State.onlineOf State.slotsOf
  rw [List.filterMap_filter, List.filterMap_filter]
  refine List.filterMap_congr fun n _ => ?_
  unfold Slot.boundTo Slot.state State.goneNotice
  cases (s.slot n).fixture with
  | none => simp
  | some f => by_cases line : f.line = ln <;> cases f.online <;> simp [line]

theorem onlineGone_iff {s t : State} {ln : LineNo} :
    OnlineGone s t ln ↔ ∀ n, t.slot n = if n ∈ s.onlineOf ln then (s.slot n).lost else s.slot n := by
  refine forall_congr' fun n => ?_
  simp only [State.mem_onlineOf, Slot.lost]
  cases (s.slot n).fixture with
  | none => simp
  | some f => simp

/-- R50: after its fixtures are lost, no slot of a line is ONLINE. -/
theorem onlineOf_of_onlineGone {s t : State} {ln : LineNo} (h : OnlineGone s t ln) : t.onlineOf ln = [] := by
  refine List.eq_nil_iff_forall_not_mem.mpr fun n hn => ?_
  obtain ⟨f, bound, line, online⟩ := State.mem_onlineOf.mp hn
  rw [onlineGone_iff.mp h n] at bound
  split at bound
  · obtain ⟨g, -, rfl⟩ := Option.map_eq_some_iff.mp bound
    cases online
  · rename_i stays
    exact stays (State.mem_onlineOf.mpr ⟨f, bound, line, online⟩)

theorem onlineGone_of_slots {s s' t t' : State} {ln : LineNo} (h : OnlineGone s t ln) (before : s'.slots = s.slots)
    (after : t'.slots = t.slots) : OnlineGone s' t' ln := fun n => by
  have slot : s'.slot n = s.slot n := by unfold State.slot; rw [before]
  have slot' : t'.slot n = t.slot n := by unfold State.slot; rw [after]
  rw [slot, slot']
  exact h n

theorem abandonedNotices_congr {s t : State} {ln : LineNo} (h : (s.line ln).enrol = (t.line ln).enrol) :
    abandonedNotices s ln = abandonedNotices t ln := by
  unfold abandonedNotices; rw [h]

theorem allGone_congr {s t : State} (ln : LineNo) (cause : GoneCause) (h : s.slots = t.slots) :
    allGone s ln cause = allGone t ln cause := by
  unfold allGone State.slot; rw [h]

/-- A line has lost its ONLINE fixtures, its record is `r`, and the links have heard `ns`. -/
structure FixturesLost (s u : State) (ln : LineNo) (r : LineRec) (ns : List Notice) : Prop where
  frame : u = { s with links := u.links, slots := u.slots, lines := u.lines }
  gone : OnlineGone s u ln
  told : Told s u (fun _ => ns)
  others : ∀ k, k ≠ ln → u.line k = s.line k
  own : u.line ln = r

section
variable {s : State} {ln : LineNo} {r : LineRec} {ns : List Notice}

/-- A change of the line's record before the loss is part of it. -/
theorem FixturesLost.after_setLine {u : State} {q : LineRec} (h : FixturesLost (s.setLine ln q) u ln r ns) :
    FixturesLost s u ln r ns where
  frame := h.frame
  gone := h.gone
  told := h.told
  others k hk := (h.others k hk).trans (State.setLine_line_ne _ _ hk)
  own := h.own

theorem State.lineLost_spec (s : State) (cause : GoneCause) (ln : LineNo) :
    FixturesLost s (s.lineLost cause ln) ln { s.line ln with effective := (s.line ln).requested }
      (allGone s ln cause) := by
  obtain ⟨frame, -, slots⟩ := State.makeMissing_foldl cause (s.onlineOf ln) (s.nodup_onlineOf ln) s
  have told := State.makeMissing_foldl_hears cause (s.onlineOf ln) (s.nodup_onlineOf ln) s
  rw [← allGone_eq] at told
  unfold State.lineLost
  generalize (s.onlineOf ln).foldl (State.makeMissing · cause) s = v at frame slots told
  have gone : OnlineGone s v ln := onlineGone_iff.mpr slots
  have line : ∀ k, v.line k = s.line k := fun k => by rw [frame]; rfl
  refine ⟨congrArg (fun w : State => { w with lines := (v.recompute ln).lines }) frame, gone, told, fun k hk => ?_, ?_⟩
  · rw [State.recompute, State.setLine_line_ne _ _ hk, line]
  · rw [State.recompute, State.setLine_line_self, State.slowest_of_none_online (onlineOf_of_onlineGone gone), line]

/-! ### Operations that end without being complete (R39) -/

theorem State.endOperation_spec (s : State) (ln : LineNo) {o : EnrolOutcome} (heard : o ≠ .complete) :
    ∀ u, u = s.endOperation ln o →
      u = { s with links := u.links, lines := u.lines } ∧
        Told s u (fun _ => [.enrolDone ln (s.line ln).enrol.bound o]) ∧ (∀ k, k ≠ ln → u.line k = s.line k) ∧
        u.line ln = { s.line ln with enrol := EnrolRecord.atRest (s.line ln).enrol.bound, seq := .idle } := by
  rintro u rfl
  obtain ⟨-, others, -⟩ := LineKept.endOperation s ln o
  refine ⟨?_, fun k => (s.endOperation_link ln o k).trans (if_neg fun h => heard h.2.1), others, ?_⟩
  · rw [State.endOperation_frame]; rfl
  · rw [State.endOperation_frame]; exact State.setLine_line_self ..

/-! ### Going OFF (R147) -/

theorem State.goOff_spec (s : State) (ln : LineNo) :
    FixturesLost s (s.goOff ln) ln
      { s.line ln with seq := .off, disablePending := false, effective := (s.line ln).requested }
      (allGone s ln .lineOff) := by
  have lost := (s.setLine ln { s.line ln with seq := .off, disablePending := false }).lineLost_spec .lineOff ln
  rw [State.setLine_line_self] at lost
  exact lost.after_setLine

/-- R37: the enrolment record of a line whose operation, if one ran, has been abandoned. -/
def EnrolRecord.abandoned (e : EnrolRecord) : EnrolRecord :=
  if e.operation = .none then e else EnrolRecord.atRest e.bound

theorem EnrolRecord.abandoned_operation (e : EnrolRecord) : e.abandoned.operation = .none := by
  unfold EnrolRecord.abandoned
  split
  · assumption
  · rfl

/-- R147: the line record of a line that has gone OFF. -/
def LineRec.off (r : LineRec) : LineRec :=
  { r with seq := .off, disablePending := false, effective := r.requested, enrol := r.enrol.abandoned }

/-- R39, R147: an operation that runs is abandoned, and the line goes OFF. -/
theorem State.abandonAndGoOff_spec (s : State) (ln : LineNo) :
    FixturesLost s (s.abandonAndGoOff ln) ln (s.line ln).off (abandonedNotices s ln ++ allGone s ln .lineOff) := by
  unfold State.abandonAndGoOff abandonedNotices LineRec.off EnrolRecord.abandoned
  split
  · exact s.goOff_spec ln
  · obtain ⟨frame, told, others, own⟩ := s.endOperation_spec ln (o := .abandoned) (by decide) _ rfl
    generalize s.endOperation ln .abandoned = v at frame told others own
    have slots : v.slots = s.slots := by rw [frame]
    obtain ⟨frame', gone, told', others', own'⟩ := v.goOff_spec ln
    generalize v.goOff ln = u at frame' gone told' others' own'
    refine ⟨?_, onlineGone_of_slots gone slots.symm rfl, fun k => ?_, fun k hk => (others' k hk).trans (others k hk), ?_⟩
    · rw [frame']
      exact congrArg (fun w : State => { w with links := u.links, slots := u.slots, lines := u.lines }) frame
    · rw [told.trans told' k, allGone_congr ln .lineOff slots]
    · rw [own', own]

end

end Sys2Proof.Machine
end

section
/-! PROOF. What each end of an exchange has done before the exchange is over (R39 to R45, R49 to R52, R140, R152), and
the state in which it is over with a disable pending (R147). -/

namespace Sys2Proof.Machine

/-! ### The effects of a reply (R140) -/

/-- What the outcome of a reply may change: slots, notices, and the rate and conditions of its line. -/
structure SlotEffects (s u : State) (ln : LineNo) : Prop where
  frame : u = { s with links := u.links, slots := u.slots, lines := u.lines }
  others : ∀ k, k ≠ ln → u.line k = s.line k
  own : u.line ln = { s.line ln with effective := (u.line ln).effective, conditions := (u.line ln).conditions }

section
variable {s t u : State} {ln : LineNo}

theorem SlotEffects.refl (s : State) (ln : LineNo) : SlotEffects s s ln := ⟨rfl, fun _ _ => rfl, rfl⟩

theorem SlotEffects.trans (h : SlotEffects s t ln) (k : SlotEffects t u ln) : SlotEffects s u ln where
  frame := k.frame.trans
    (congrArg (fun v : State => { v with links := u.links, slots := u.slots, lines := u.lines }) h.frame)
  others m hm := (k.others m hm).trans (h.others m hm)
  own := k.own.trans (congrArg (fun r : LineRec =>
    { r with effective := (u.line ln).effective, conditions := (u.line ln).conditions }) h.own)

/-- A change of slots and notices alone. -/
theorem SlotEffects.of_slots (frame : u = { s with links := u.links, slots := u.slots }) : SlotEffects s u ln :=
  ⟨by rw [frame], fun k _ => by rw [frame]; rfl, by rw [frame]; rfl⟩

theorem State.putCondition_slotEffects (s : State) (ln : LineNo) (c : LineCondition) (b : Bool) :
    SlotEffects s (s.putCondition ln c b) ln where
  frame := by rw [State.putCondition_frame]
  others k hk := by rw [State.putCondition_line, if_neg hk]
  own := by rw [State.putCondition_line, if_pos rfl]

theorem State.missSet_slotEffects (s : State) (ln : LineNo) (n : SlotNo) (f : Fixture) :
    SlotEffects s (s.missSet ln n f) ln := by
  obtain ⟨frame, -, own, others, -⟩ := s.missSet_frame ln n f
  exact ⟨frame, others, by rw [own]⟩

theorem State.applySet_slotEffects (s : State) (ln : LineNo) (n : SlotNo) (o : AckOutcome) :
    SlotEffects s (s.applySet ln n o) ln := by
  unfold State.applySet
  split
  · exact .refl s ln
  · split
    · exact .of_slots (s.ackSet_frame n _ _ _ _).1
    · exact s.missSet_slotEffects ln n _

theorem State.applyPoll_slotEffects (s : State) (ln : LineNo) (n : SlotNo) (o : AckOutcome) :
    SlotEffects s (s.applyPoll ln n o) ln := by
  unfold State.applyPoll
  split
  · split
    · exact .refl s ln
    · rename_i c p q _ f _
      obtain ⟨frame, -, -, -, others, own⟩ := s.ackPoll_spec ln n f c p q _ rfl
      exact ⟨frame, others, by rw [own]⟩
  · exact .refl s ln

theorem State.applyOutcome_slotEffects (s : State) (ln : LineNo) (frame : LineFrame) (o : AckOutcome) :
    SlotEffects s (s.applyOutcome ln frame o) ln := by
  have applied : SlotEffects s
      (match frame with | .set n .. => s.applySet ln n o | .poll n _ => s.applyPoll ln n o | _ => s) ln := by
    split
    · exact s.applySet_slotEffects ln _ o
    · exact s.applyPoll_slotEffects ln _ o
    · exact .refl s ln
  unfold State.applyOutcome
  dsimp only
  split
  · exact applied.trans (State.putCondition_slotEffects _ ln _ _)
  · exact applied

/-! ### Before an exchange is over -/

/-- What a command that ends an exchange may have changed before the exchange is over. -/
structure EffectsBefore (s u : State) (ln : LineNo) : Prop where
  frame : u = { s with links := u.links, slots := u.slots, types := u.types, lines := u.lines }
  kept : LineKept s u ln

theorem EffectsBefore.refl (s : State) (ln : LineNo) : EffectsBefore s s ln := ⟨rfl, .refl s ln⟩

theorem SlotEffects.before (h : SlotEffects s u ln) : EffectsBefore s u ln :=
  ⟨by rw [h.frame], by rw [h.frame], h.others, by rw [h.own]⟩

theorem State.mapEnrol_before (s : State) (ln : LineNo) (change : EnrolRecord → EnrolRecord) :
    EffectsBefore s (s.mapEnrol ln change) ln := ⟨rfl, .mapEnrol s ln change⟩

theorem State.endOperation_before (s : State) (ln : LineNo) (o : EnrolOutcome) :
    EffectsBefore s (s.endOperation ln o) ln :=
  ⟨by rw [State.endOperation_frame]; rfl, .endOperation s ln o⟩

/-! ### An operation that stops (R39) -/

theorem LineConditionSet.has_put (c : LineConditionSet) (k j : LineCondition) (b : Bool) :
    (c.put k b).has j = if j = k then b else c.has j := by
  cases k <;> cases j <;> rfl

/-- R39, R152: a STOPPED end enters its condition, suspends joining and tells the links of both. -/
theorem State.stopOperation_spec (s : State) (ln : LineNo) (c : LineCondition) :
    ∀ u, u = s.stopOperation ln c →
      u = { s with links := u.links, lines := u.lines } ∧
        Told s u (fun _ => enteredNotices s ln c ++ [.enrolDone ln (s.line ln).enrol.bound .stopped]) ∧
        (∀ k, k ≠ ln → u.line k = s.line k) ∧
        u.line ln =
          { s.line ln with
            conditions := (s.line ln).conditions.put c true, joinSuspended := true, seq := .idle
            enrol := EnrolRecord.atRest (s.line ln).enrol.bound } := by
  rintro u rfl
  have entered : Told s (s.putCondition ln c true) (fun _ => enteredNotices s ln c) := s.putCondition_told ln c true
  have frame := s.putCondition_frame ln c true
  have line := fun k => s.putCondition_line ln k c true
  unfold State.stopOperation
  dsimp only
  generalize s.putCondition ln c true = v at entered frame line
  obtain ⟨w, suspended⟩ : ∃ w, w = v.setLine ln { v.line ln with joinSuspended := true } := ⟨_, rfl⟩
  have others : ∀ k, k ≠ ln → w.line k = s.line k := fun k hk => by
    rw [suspended, State.setLine_line_ne _ _ hk, line, if_neg hk]
  have own : w.line ln =
      { s.line ln with conditions := (s.line ln).conditions.put c true, joinSuspended := true } := by
    rw [suspended, State.setLine_line_self, line, if_pos rfl]
  have link : ∀ k, w.link k = v.link k := fun k => by rw [suspended]; rfl
  have whole : w = { s with links := w.links, lines := w.lines } := by rw [suspended, frame]; rfl
  rw [← suspended]
  obtain ⟨frame', told, others', own'⟩ := w.endOperation_spec ln (o := .stopped) (by decide) _ rfl
  generalize w.endOperation ln .stopped = u at frame' told others' own'
  refine ⟨?_, fun k => ?_, fun k hk => (others' k hk).trans (others k hk), by rw [own', own]⟩
  · exact frame'.trans (congrArg (fun v : State => { v with links := u.links, lines := u.lines }) whole)
  · rw [told k, link, entered k, own, ← List.foldl_append]

theorem State.stopOperation_before (s : State) (ln : LineNo) (c : LineCondition) :
    EffectsBefore s (s.stopOperation ln c) ln := by
  obtain ⟨frame, -, others, own⟩ := s.stopOperation_spec ln c _ rfl
  exact ⟨by rw [frame], by rw [frame], others, by rw [own]⟩

/-! ### The DROP to address 0 (R40) -/

theorem State.dropAll_spec (s : State) (ln : LineNo) :
    FixturesLost s (s.dropAll ln) ln
      { s.line ln with effective := (s.line ln).requested
                       enrol := { (s.line ln).enrol with subState := some .calling } }
      (allGone s ln .dropped) := by
  obtain ⟨frame, gone, told, others, own⟩ := s.lineLost_spec .dropped ln
  refine ⟨?_, gone, told, fun k hk => (State.setLine_line_ne _ _ hk).trans (others k hk), ?_⟩
  · exact congrArg (fun v : State => { v with lines := (s.dropAll ln).lines }) frame
  · refine (State.setLine_line_self ..).trans ?_
    exact congrArg (fun r : LineRec => { r with enrol := { r.enrol with subState := some .calling } }) own

theorem FixturesLost.before {r : LineRec} {ns : List Notice} (h : FixturesLost s u ln r ns)
    (own : r = { s.line ln with seq := r.seq, effective := r.effective, conditions := r.conditions, enrol := r.enrol
                                joinSuspended := r.joinSuspended }) : EffectsBefore s u ln :=
  ⟨by rw [h.frame], by rw [h.frame], h.others, by rw [h.own]; exact own⟩

theorem State.dropAll_before (s : State) (ln : LineNo) : EffectsBefore s (s.dropAll ln) ln :=
  (s.dropAll_spec ln).before rfl

/-! ### A binding (R44) -/

theorem State.boundOn_before (s : State) (ln : LineNo) (n : SlotNo) (x : BitVec 40) (a : Nat) (c : Caps) (b : Bool) :
    EffectsBefore s (s.boundOn ln n x a c b) ln := by
  obtain ⟨frame, -, -, -, others, own⟩ := s.boundOn_spec ln n x a c b _ rfl
  exact ⟨by rw [frame], by rw [frame], others, by rw [own]⟩

/-! ### The end of an exchange with a disable pending (R147) -/

theorem State.endExchange_pending {x : Exchange} (pending : (s.line ln).disablePending = true)
    (flight : (s.line ln).exchange = some x) :
    FixturesLost s (s.endExchange ln) ln
      { s.line ln with exchange := none, restRate := x.rate, restedAt := s.micros + 2 * x.rate.charMicros }.off
      (abandonedNotices s ln ++ allGone s ln .lineOff) := by
  have lost := (s.setLine ln { s.line ln with
    exchange := none, restRate := x.rate, restedAt := s.micros + 2 * x.rate.charMicros }).abandonAndGoOff_spec ln
  rw [State.setLine_line_self, abandonedNotices_congr (t := s) (by rw [State.setLine_line_self])] at lost
  have ended : s.endExchange ln = (s.setLine ln { s.line ln with
      exchange := none, restRate := x.rate, restedAt := s.micros + 2 * x.rate.charMicros }).abandonAndGoOff ln := by
    simp only [State.endExchange, flight, pending, if_true, Option.map_some, Option.getD_some, restMicros]
  rw [ended]
  exact lost.after_setLine

end

end Sys2Proof.Machine
end

section
/-! PROOF. What the Line Sequencers promise of a line record (R37, R135, R137, R147): the records that keep it, and every
event of a line. -/

namespace Sys2Proof.Machine

/-! ### The parts of the promise -/

/-- R135: the settings of a line in their ranges. -/
structure LineRec.InRange (r : LineRec) : Prop where
  window : 100 ≤ r.replyWindow ∧ r.replyWindow ≤ 2000
  refresh : 100 ≤ r.refreshPeriod ∧ r.refreshPeriod ≤ 5000
  join : 250 ≤ r.joinPeriod ∧ r.joinPeriod ≤ 10000

/-- R37, R39, R42: an enrolment record whose fields agree with its operation and its sub-state. -/
structure EnrolRecord.Coherent (e : EnrolRecord) : Prop where
  at_rest : e.operation = .none →
    e.subState = none ∧ e.captured = none ∧ e.offered = none ∧ e.attempt = none ∧ e.giveUp = none
  at_work : e.operation ≠ .none → e.subState.isSome = true
  offered_in_assigning : e.subState ≠ some .assigning → e.offered = none
  offered_range : ∀ a, e.offered = some a → 1 ≤ a ∧ a ≤ 32

/-- What is left of the promise while the exchange and the sequencer state of a line that is not OFF are settled. -/
structure LineRec.Settled (r : LineRec) : Prop where
  range : r.InRange
  pending : r.disablePending = !r.enabled
  enrol : r.enrol.Coherent

section
variable {r : LineRec} {e : EnrolRecord}

theorem LineRec.Sound.inRange (h : r.Sound) : r.InRange := ⟨h.window_range, h.refresh_range, h.join_range⟩

theorem LineRec.Sound.coherent (h : r.Sound) : r.enrol.Coherent :=
  ⟨h.at_rest, h.at_work, h.offered_in_assigning, h.offered_range⟩

theorem LineRec.Sound.settled (h : r.Sound) (awake : r.seq ≠ .off) : r.Settled := by
  refine ⟨h.inRange, ?_, h.coherent⟩
  cases enabled : r.enabled <;> cases pending : r.disablePending
  · exact absurd (h.off_iff.mpr ⟨enabled, pending⟩) awake
  · rfl
  · rfl
  · rw [(h.pending_waits pending).1] at enabled; cases enabled

theorem LineRec.Sound.awake (h : r.Sound) {x : Exchange} (flight : r.exchange = some x) : r.seq ≠ .off := fun off => by
  rw [(h.resting (.inl off)).1] at flight; cases flight

/-- With no exchange in flight, a disable takes effect at once: none is pending. -/
theorem LineRec.Sound.not_pending (h : r.Sound) (free : r.exchange = none) : r.disablePending = false :=
  Bool.eq_false_iff.mpr fun pending => by
    have flight := (h.pending_waits pending).2
    rw [free] at flight; cases flight

theorem EnrolRecord.atRest_coherent (bound : Nat) : (EnrolRecord.atRest bound).Coherent :=
  ⟨fun _ => ⟨rfl, rfl, rfl, rfl, rfl⟩, fun running => absurd rfl running, fun _ => rfl, fun _ h => nomatch h⟩

theorem EnrolRecord.start_coherent {operation : Operation} (running : operation ≠ .none) (subState : SubState) :
    (EnrolRecord.start operation subState).Coherent :=
  ⟨fun h => absurd h running, fun _ => rfl, fun _ => rfl, fun _ h => nomatch h⟩

theorem EnrolRecord.Coherent.abandoned (h : e.Coherent) : e.abandoned.Coherent := by
  unfold EnrolRecord.abandoned
  split
  · exact h
  · exact EnrolRecord.atRest_coherent _

/-- A running operation with no address offered. -/
theorem EnrolRecord.coherent_of_running (running : e.operation ≠ .none) (work : e.subState.isSome = true)
    (offered : e.offered = none) : e.Coherent :=
  ⟨fun h => absurd h running, fun _ => work, fun _ => offered, fun a h => by rw [offered] at h; cases h⟩

/-! ### Records that keep the promise -/

/-- A line with no exchange in flight and no disable pending: OFF while not enabled, ENROLLING while an operation runs. -/
theorem LineRec.sound_of_no_exchange (range : r.InRange) (enrol : r.enrol.Coherent) (free : r.exchange = none)
    (pending : r.disablePending = false) (off : r.seq = .off ↔ r.enabled = false)
    (seq : (r.seq = .off ∨ r.seq = .idle) ∧ r.enrol.operation = .none ∨
      r.seq = .enrolling ∧ r.enrol.operation ≠ .none) : r.Sound where
  window_range := range.window
  refresh_range := range.refresh
  join_range := range.join
  off_iff := off.trans (and_iff_left pending).symm
  pending_waits h := by rw [pending] at h; cases h
  resting h := ⟨free, by
    rcases seq with ⟨-, rest⟩ | ⟨enrolling, -⟩
    · exact rest
    · rw [enrolling] at h; rcases h with h | h <;> cases h⟩
  sending h := by rw [h] at seq; rcases seq with ⟨h | h, -⟩ | ⟨h, -⟩ <;> cases h
  awaiting h := by rw [h] at seq; rcases seq with ⟨h | h, -⟩ | ⟨h, -⟩ <;> cases h
  enrolling h := by
    rw [h] at seq
    rcases seq with ⟨h | h, -⟩ | ⟨-, running⟩
    · cases h
    · cases h
    · exact ⟨running, fun x flight => by rw [free] at flight; cases flight⟩
  at_rest := enrol.at_rest
  at_work := enrol.at_work
  assigning x _ _ flight := by rw [free] at flight; cases flight
  calling x flight := by rw [free] at flight; cases flight
  dropping x _ flight := by rw [free] at flight; cases flight
  offered_in_assigning := enrol.offered_in_assigning
  offered_range := enrol.offered_range

/-- R137, R141: a line whose exchange is over with no disable pending. -/
theorem LineRec.Settled.over (h : r.Settled) (pending : r.disablePending = false) (rate : Rate) (rested : Nat) :
    { r with exchange := none, restRate := rate, restedAt := rested
             seq := if r.enrol.operation = Operation.none then .idle else .enrolling }.Sound := by
  refine LineRec.sound_of_no_exchange ⟨h.range.window, h.range.refresh, h.range.join⟩ h.enrol rfl pending ?_ ?_
  · have enabled := h.pending
    rw [pending] at enabled
    refine iff_of_false ?_ fun off => ?_
    · dsimp only; split <;> decide
    · dsimp only at off; rw [off] at enabled; cases enabled
  · dsimp only
    split
    · exact .inl ⟨.inr rfl, ‹_›⟩
    · exact .inr ⟨rfl, ‹_›⟩

/-- R147: a line that has gone OFF. -/
theorem LineRec.off_sound (range : r.InRange) (enrol : r.enrol.Coherent) (enabled : r.enabled = false)
    (free : r.exchange = none) : r.off.Sound :=
  LineRec.sound_of_no_exchange ⟨range.window, range.refresh, range.join⟩ enrol.abandoned free rfl
    (iff_of_true rfl enabled) (.inl ⟨.inl rfl, r.enrol.abandoned_operation⟩)

/-- The rest of the record plays no part. -/
theorem LineRec.Settled.transfer {q : LineRec} (h : r.Settled) (enrol : q.enrol.Coherent)
    (enabled : q.enabled = r.enabled := by rfl) (pending : q.disablePending = r.disablePending := by rfl)
    (window : q.replyWindow = r.replyWindow := by rfl) (refresh : q.refreshPeriod = r.refreshPeriod := by rfl)
    (join : q.joinPeriod = r.joinPeriod := by rfl) : q.Settled :=
  ⟨⟨window ▸ h.range.window, refresh ▸ h.range.refresh, join ▸ h.range.join⟩, by rw [pending, enabled, h.pending], enrol⟩

/-- R147: a pending disable has the enabled setting off. -/
theorem LineRec.Settled.not_enabled (h : r.Settled) (pending : r.disablePending = true) : r.enabled = false := by
  have off := h.pending
  rw [pending] at off
  exact Bool.not_eq_true' _ |>.mp off.symm

theorem LineRec.Settled.not_off (h : r.Settled) : ¬(r.enabled = false ∧ r.disablePending = false) := fun ⟨off, live⟩ => by
  have pending := h.pending
  rw [off, live] at pending; cases pending

/-- A line with a SET or POLL exchange in flight. -/
theorem LineRec.sound_of_served {x : Exchange} (settled : r.Settled) (flight : r.exchange = some x)
    (served : x.frame.slotAddress.isSome = true)
    (seq : r.seq = .sending ∧ x.phase = .frame ∨ r.seq = .awaiting ∧ x.phase = .window) : r.Sound :=
  have unserved : ∀ {y frame}, r.exchange = some y → y.frame = frame → frame.slotAddress = none → False :=
    fun hy hf none => by
      rw [flight] at hy; cases hy
      rw [hf, none] at served; cases served
  { window_range := settled.range.window
    refresh_range := settled.range.refresh
    join_range := settled.range.join
    off_iff := iff_of_false (fun off => by rw [off] at seq; rcases seq with ⟨h, -⟩ | ⟨h, -⟩ <;> cases h) settled.not_off
    pending_waits := fun pending => ⟨settled.not_enabled pending, by rw [flight]; rfl⟩
    resting := fun rest => by
      rcases rest with rest | rest <;> rw [rest] at seq <;> rcases seq with ⟨h, -⟩ | ⟨h, -⟩ <;> cases h
    sending := fun sending => by
      rcases seq with ⟨-, phase⟩ | ⟨awaiting, -⟩
      · exact ⟨x, flight, served, phase⟩
      · rw [sending] at awaiting; cases awaiting
    awaiting := fun awaiting => by
      rcases seq with ⟨sending, -⟩ | ⟨-, phase⟩
      · rw [awaiting] at sending; cases sending
      · exact ⟨x, flight, served, phase⟩
    enrolling := fun enrolling => by rw [enrolling] at seq; rcases seq with ⟨h, -⟩ | ⟨h, -⟩ <;> cases h
    at_rest := settled.enrol.at_rest
    at_work := settled.enrol.at_work
    assigning := fun y u a hy hf => (unserved hy hf rfl).elim
    calling := fun y hy hf => (unserved hy hf rfl).elim
    dropping := fun y a hy hf => (unserved hy hf rfl).elim
    offered_in_assigning := settled.enrol.offered_in_assigning
    offered_range := settled.enrol.offered_range }

/-- R38, R40, R41, R43: the enrolment record calls for the frame of an exchange that serves no slot. -/
structure EnrolRecord.Calls (e : EnrolRecord) (x : Exchange) : Prop where
  unserved : x.frame.slotAddress = none
  assigning : ∀ u a, x.frame = .assign u a → e.captured = some u ∧ e.offered = some a ∧ e.giveUp = none
  calling : x.frame = .call →
    e.giveUp = none ∧ e.subState = some (if x.phase = .arbitration then .arbitrating else .calling)
  dropping : ∀ a, x.frame = .drop a → e.giveUp.isSome = true ∨ e.subState = some .dropping

theorem LineRec.Sound.calls (h : r.Sound) {x : Exchange} (flight : r.exchange = some x)
    (unserved : x.frame.slotAddress = none) : r.enrol.Calls x :=
  ⟨unserved, fun u a => h.assigning x u a flight, h.calling x flight, fun a => h.dropping x a flight⟩

/-- An ENROLLING line with an exchange of its operation in flight. -/
theorem LineRec.sound_of_calls {x : Exchange} (settled : r.Settled) (seq : r.seq = .enrolling)
    (running : r.enrol.operation ≠ .none) (flight : r.exchange = some x) (calls : r.enrol.Calls x) : r.Sound where
  window_range := settled.range.window
  refresh_range := settled.range.refresh
  join_range := settled.range.join
  off_iff := iff_of_false (by rw [seq]; decide) settled.not_off
  pending_waits pending := ⟨settled.not_enabled pending, by rw [flight]; rfl⟩
  resting h := by rw [seq] at h; rcases h with h | h <;> cases h
  sending h := by rw [seq] at h; cases h
  awaiting h := by rw [seq] at h; cases h
  enrolling _ := ⟨running, fun y hy => by rw [flight] at hy; cases hy; exact calls.unserved⟩
  at_rest := settled.enrol.at_rest
  at_work := settled.enrol.at_work
  assigning y u a hy := by rw [flight] at hy; cases hy; exact calls.assigning u a
  calling y hy := by rw [flight] at hy; cases hy; exact calls.calling
  dropping y a hy := by rw [flight] at hy; cases hy; exact calls.dropping a
  offered_in_assigning := settled.enrol.offered_in_assigning
  offered_range := settled.enrol.offered_range

/-- An exchange of an operation is in flight in ENROLLING alone. -/
theorem LineRec.Sound.enrolling_of_unserved (h : r.Sound) {x : Exchange} (flight : r.exchange = some x)
    (unserved : x.frame.slotAddress = none) : r.seq = .enrolling := by
  cases seq : r.seq with
  | off => rw [(h.resting (.inl seq)).1] at flight; cases flight
  | idle => rw [(h.resting (.inr seq)).1] at flight; cases flight
  | sending =>
    obtain ⟨y, hy, served, -⟩ := h.sending seq
    rw [flight] at hy; cases hy
    rw [unserved] at served; cases served
  | awaiting =>
    obtain ⟨y, hy, served, -⟩ := h.awaiting seq
    rw [flight] at hy; cases hy
    rw [unserved] at served; cases served
  | enrolling => rfl

/-- R38: the frame that the record calls for. -/
theorem EnrolRecord.calls_nextFrame {frame : LineFrame} (next : e.nextFrame = some frame) (rate : Rate)
    (ends : Nat) : e.Calls { frame := frame, rate := rate, phase := .frame, ends := ends } := by
  unfold EnrolRecord.nextFrame at next
  split at next
  · rename_i g given
    cases next
    exact ⟨rfl, (fun _ _ h => nomatch h), (fun h => nomatch h), fun _ _ => .inl (by rw [given]; rfl)⟩
  · rename_i kept
    split at next
    · rename_i dropping
      cases next
      exact ⟨rfl, (fun _ _ h => nomatch h), (fun h => nomatch h), fun _ _ => .inr dropping⟩
    · rename_i calling
      cases next
      exact ⟨rfl, (fun _ _ h => nomatch h), fun _ => ⟨kept, calling⟩, fun _ h => nomatch h⟩
    · rename_i captured offered
      cases next
      exact ⟨rfl, fun u a h => by cases h; exact ⟨captured, offered, kept⟩, (fun h => nomatch h), fun _ h => nomatch h⟩
    · cases next

end

end Sys2Proof.Machine
end

section
/-! PROOF. Every command keeps what the Line Sequencers promise of their line records (O56). -/

namespace Sys2Proof.Machine

/-! ### The promise kept -/

/-- The lines of `t` are as promised where those of `s` are. -/
def KeepsLines (s t : State) : Prop := (∀ ln, (s.line ln).Sound) → ∀ ln, (t.line ln).Sound

section
variable {s t u : State} {ln : LineNo}

theorem KeepsLines.refl (s : State) : KeepsLines s s := id

theorem KeepsLines.trans (h : KeepsLines s t) (k : KeepsLines t u) : KeepsLines s u := k ∘ h

theorem KeepsLines.ite {c : Prop} [Decidable c] (ht : c → KeepsLines s t) (hu : ¬c → KeepsLines s u) :
    KeepsLines s (if c then t else u) := by
  split
  · exact ht ‹_›
  · exact hu ‹_›

theorem KeepsLines.of_lines (lines : t.lines = s.lines) : KeepsLines s t := fun sound k => by
  have line : t.line k = s.line k := by unfold State.line; rw [lines]
  rw [line]
  exact sound k

/-- One line's record has changed. -/
theorem KeepsLines.of_line (others : ∀ k, k ≠ ln → t.line k = s.line k)
    (own : (s.line ln).Sound → (t.line ln).Sound) : KeepsLines s t := fun sound k => by
  by_cases hk : k = ln
  · subst hk; exact own (sound k)
  · rw [others k hk]; exact sound k

theorem State.setLine_keepsLines {r : LineRec} (own : (s.line ln).Sound → r.Sound) : KeepsLines s (s.setLine ln r) :=
  .of_line (fun _ hk => State.setLine_line_ne _ _ hk) (by rw [State.setLine_line_self]; exact own)

theorem KeepsLines.answer (h : KeepsLines s t) (l : Link) (f : Frame) (x : Status) (d : AnswerData) :
    KeepsLines s (t.answer l f x d) := h.trans (.of_lines (State.answer_lines ..))

theorem State.refuse_keepsLines (s : State) (l : Link) (f : Frame) (x : Status) : KeepsLines s (s.refuse l f x) :=
  (KeepsLines.refl s).answer l f x .none

theorem SlotEffects.keepsLines (h : SlotEffects s u ln) : KeepsLines s u :=
  .of_line h.others fun sound => by rw [h.own]; exact { sound with }

/-! ### The ends of exchanges (R137, R141, R147) -/

/-- R137, R147: an exchange that is over leaves a sound line where its enrolment record is coherent. -/
theorem EffectsBefore.endExchange_keepsLines {v : State} {x : Exchange} (h : EffectsBefore s v ln)
    (flight : (s.line ln).exchange = some x) (enrol : (s.line ln).Sound → (v.line ln).enrol.Coherent) :
    KeepsLines s (v.endExchange ln) := by
  obtain ⟨-, others, own⟩ := h.kept
  have flight' : (v.line ln).exchange = some x := by rw [own]; exact flight
  have settled : (s.line ln).Sound → (v.line ln).Settled := fun sound =>
    (sound.settled (sound.awake flight)).transfer (enrol sound) (by rw [own]) (by rw [own]) (by rw [own]) (by rw [own])
      (by rw [own])
  cases pending : (v.line ln).disablePending with
  | false =>
    rw [State.endExchange_not_pending pending flight']
    refine .of_line (ln := ln) (fun k hk => (State.setLine_line_ne _ _ hk).trans (others k hk)) fun sound => ?_
    rw [State.setLine_line_self]
    exact (settled sound).over pending _ _
  | true =>
    have lost := State.endExchange_pending pending flight'
    refine .of_line (fun k hk => (lost.others k hk).trans (others k hk)) fun sound => ?_
    have kept := settled sound
    rw [lost.own]
    exact LineRec.off_sound ⟨kept.range.window, kept.range.refresh, kept.range.join⟩ kept.enrol
      (kept.not_enabled pending) rfl

/-- R37, R137: an exchange that serves no slot is one of an operation that runs. -/
theorem LineRec.Sound.running {r : LineRec} (h : r.Sound) {x : Exchange} (flight : r.exchange = some x)
    (unserved : x.frame.slotAddress = none) : r.enrol.operation ≠ .none :=
  (h.enrolling (h.enrolling_of_unserved flight unserved)).1

theorem State.reply_keepsLines {x : Exchange} (flight : (s.line ln).exchange = some x) (o : AckOutcome) :
    KeepsLines s ((s.applyOutcome ln x.frame o).endExchange ln) := by
  have effects := s.applyOutcome_slotEffects ln x.frame o
  exact effects.before.endExchange_keepsLines flight fun sound => by rw [effects.own]; exact sound.coherent

variable (s ln)

theorem State.endReply_keepsLines (reply : List RxChar) : KeepsLines s (s.endReply ln reply) := by
  unfold State.endReply
  split
  · exact .refl s
  · rename_i flight
    split
    · exact .refl s
    · exact .ite (fun _ => State.reply_keepsLines flight _) fun _ => .refl s

theorem State.expireReply_keepsLines : KeepsLines s (s.expireReply ln) := by
  unfold State.expireReply
  split
  · exact .refl s
  · rename_i flight
    split
    · exact .refl s
    · exact .ite (fun _ => State.reply_keepsLines flight _) fun _ => .refl s

/-- R39, R40: the operation has stopped, or goes on to CALLING with no address offered. -/
theorem State.endDrop_keepsLines : KeepsLines s (s.endDrop ln) := by
  unfold State.endDrop
  split
  · rename_i a ended
    obtain ⟨x, flight, frame, -, -⟩ := State.exchangeOver_eq_some.mp ended
    split
    · rename_i g _
      obtain ⟨-, -, -, own⟩ := s.stopOperation_spec ln g.condition _ rfl
      refine (s.stopOperation_before ln _).endExchange_keepsLines flight fun _ => ?_
      rw [own]; exact EnrolRecord.atRest_coherent _
    · rename_i kept
      refine (s.dropAll_before ln).endExchange_keepsLines flight fun sound => ?_
      rw [(s.dropAll_spec ln).own]
      refine EnrolRecord.coherent_of_running (sound.running flight (by rw [frame]; rfl)) rfl
        (sound.offered_in_assigning ?_)
      rcases sound.dropping x a flight frame with given | dropping
      · rw [kept] at given; cases given
      · rw [dropping]; decide
  · exact .refl s

/-- R41, R42: the samples are offered an address of 1 to 32, or are given up. -/
theorem State.endArbitration_keepsLines (samples : BitVec 40) : KeepsLines s (s.endArbitration ln samples) := by
  unfold State.endArbitration
  split
  · rename_i ended
    obtain ⟨x, flight, frame, phase, -⟩ := State.exchangeOver_eq_some.mp ended
    have running : (s.line ln).Sound → (s.line ln).enrol.operation ≠ .none := fun sound =>
      sound.running flight (by rw [frame]; rfl)
    refine .ite (fun _ => ?_) fun _ => ?_
    · refine (s.endOperation_before ln _).endExchange_keepsLines flight fun _ => ?_
      rw [State.endOperation_frame]
      show (State.line (s.setLine ln _) ln).enrol.Coherent
      rw [State.setLine_line_self]
      exact EnrolRecord.atRest_coherent _
    · split
      · rename_i a lowest
        obtain ⟨low, high, -⟩ := State.lowestAddress_spec lowest
        refine (s.mapEnrol_before ln _).endExchange_keepsLines flight fun sound => ?_
        rw [State.mapEnrol, State.setLine_line_self]
        exact ⟨fun rest => absurd rest (running sound), fun _ => rfl, fun other => absurd rfl other,
          fun b offered => by cases offered; exact ⟨low, high⟩⟩
      · refine (s.mapEnrol_before ln _).endExchange_keepsLines flight fun sound => ?_
        obtain ⟨-, arbitrating⟩ := sound.calling x flight frame
        rw [if_pos phase] at arbitrating
        rw [State.mapEnrol, State.setLine_line_self]
        exact EnrolRecord.coherent_of_running (running sound) (sound.at_work (running sound))
          (sound.offered_in_assigning (by rw [arbitrating]; decide))
  · exact .refl s

variable {s ln}

/-- R43, R45: a change of attempt or giving up alone. -/
theorem State.mapEnrol_endExchange_keepsLines {x : Exchange} (flight : (s.line ln).exchange = some x)
    (unserved : x.frame.slotAddress = none) (change : EnrolRecord → EnrolRecord)
    (operation : ∀ e, (change e).operation = e.operation) (subState : ∀ e, (change e).subState = e.subState)
    (offered : ∀ e, (change e).offered = e.offered) : KeepsLines s ((s.mapEnrol ln change).endExchange ln) := by
  refine (s.mapEnrol_before ln change).endExchange_keepsLines flight fun sound => ?_
  rw [State.mapEnrol, State.setLine_line_self]
  refine ⟨fun rest => absurd ((operation _).symm.trans rest) (sound.running flight unserved), fun _ => ?_, fun other => ?_,
    fun a ha => ?_⟩
  · rw [subState]; exact sound.at_work (sound.running flight unserved)
  · rw [subState] at other; rw [offered]; exact sound.offered_in_assigning other
  · rw [offered] at ha; exact sound.offered_range a ha

section
variable {x : Exchange} {uid : BitVec 40} {a : Nat} (flight : (s.line ln).exchange = some x)
  (frame : x.frame = .assign uid a)
include flight frame

theorem State.capsFailed_keepsLines (address : Nat) : KeepsLines s (s.capsFailed ln address) :=
  State.mapEnrol_endExchange_keepsLines flight (by rw [frame]; rfl) _ (fun e => by split <;> rfl)
    (fun e => by split <;> rfl) fun e => by split <;> rfl

theorem State.refuseBinding_keepsLines (address : Nat) (c : LineCondition) : KeepsLines s (s.refuseBinding ln address c) :=
  State.mapEnrol_endExchange_keepsLines flight (by rw [frame]; rfl) _ (fun _ => rfl) (fun _ => rfl) fun _ => rfl

theorem State.bindOn_keepsLines (n : SlotNo) (u : BitVec 40) (address : Nat) (c : Caps) (b : Bool) :
    KeepsLines s (s.bindOn ln n u address c b) := by
  obtain ⟨-, -, -, -, -, own⟩ := s.boundOn_spec ln n u address c b _ rfl
  refine (s.boundOn_before ln n u address c b).endExchange_keepsLines flight fun sound => ?_
  rw [own]
  exact EnrolRecord.coherent_of_running (sound.running flight (by rw [frame]; rfl)) rfl rfl

theorem State.receiveCaps_keepsLines (u : BitVec 40) (address : Nat) (c : Caps) :
    KeepsLines s (s.receiveCaps ln u address c) := by
  unfold State.receiveCaps
  split
  · exact State.bindOn_keepsLines flight frame _ u address c true
  · exact State.bindOn_keepsLines flight frame _ u address c false
  · exact State.refuseBinding_keepsLines flight frame address _
  · exact State.refuseBinding_keepsLines flight frame address _

end

/-! ### Frames and windows (R137 to R139) -/

variable (s ln)

theorem State.endLineFrame_keepsLines : KeepsLines s (s.endLineFrame ln) := by
  unfold State.endLineFrame
  split
  · exact .refl s
  · rename_i x flight
    refine .ite (fun ended => ?_) fun _ => .refl s
    rw [State.openWindow, State.setLine_setLine, State.setLine_line_self]
    exact State.setLine_keepsLines fun sound =>
      LineRec.sound_of_served ((sound.settled (sound.awake flight)).transfer sound.coherent) rfl ended.1 (.inr ⟨rfl, rfl⟩)

/-- R43: the window of an ASSIGN opens on the ASSIGN that the record calls for. -/
theorem State.endAssign_keepsLines : KeepsLines s (s.endAssign ln) := by
  unfold State.endAssign
  split
  · exact .refl s
  · rename_i x flight
    split
    · rename_i frame
      have unserved : x.frame.slotAddress = none := by rw [frame]; rfl
      refine .ite (fun _ => State.setLine_keepsLines fun sound => ?_) fun _ => .refl s
      refine LineRec.sound_of_calls ((sound.settled (sound.awake flight)).transfer sound.coherent)
        (sound.enrolling_of_unserved flight unserved) (sound.running flight unserved) rfl ?_
      exact ⟨unserved, fun u b => sound.assigning x u b flight, (fun call => by rw [frame] at call; cases call),
        fun b => sound.dropping x b flight⟩
    · exact .refl s

theorem State.openArbitration_keepsLines : KeepsLines s (s.openArbitration ln) := by
  unfold State.openArbitration
  split
  · rename_i ended
    obtain ⟨x, flight, frame, phase, -⟩ := State.exchangeOver_eq_some.mp ended
    rw [State.mapEnrol, State.setLine_setLine, State.setLine_line_self]
    refine State.setLine_keepsLines fun sound => ?_
    have unserved : x.frame.slotAddress = none := by rw [frame]; rfl
    obtain ⟨kept, calling⟩ := sound.calling x flight frame
    rw [if_neg (by rw [phase]; decide)] at calling
    have running := sound.running flight unserved
    have offered := sound.offered_in_assigning (by rw [calling]; decide)
    refine LineRec.sound_of_calls ?_ (sound.enrolling_of_unserved flight unserved) running rfl ?_
    · exact (sound.settled (sound.awake flight)).transfer (EnrolRecord.coherent_of_running running rfl offered)
    · exact ⟨rfl, (fun _ _ h => nomatch h), fun _ => ⟨kept, rfl⟩, fun _ h => nomatch h⟩
  · exact .refl s

/-- R38, R41, R138: a rested ENROLLING line begins the frame that its record calls for. -/
theorem State.startEnrolFrame_of_next {frame : LineFrame} (enrolling : (s.line ln).seq = .enrolling)
    (free : (s.line ln).exchange = none) (rested : s.rested ln = true)
    (next : (s.line ln).enrol.nextFrame = some frame) :
    s.startEnrolFrame ln = s.setLine ln
      { s.line ln with
        lastCall := if frame = .call then some s.stampNow else (s.line ln).lastCall
        exchange := some { frame := frame, rate := .r250, phase := .frame
                           ends := s.micros + 40 * frame.bytes.length } } := by
  unfold State.startEnrolFrame State.beginExchange
  dsimp only
  rw [if_pos ⟨enrolling, free, rested⟩, next]
  dsimp only
  split
  · rw [State.setLine_setLine, State.setLine_line_self]; rfl
  · rfl

theorem State.startEnrolFrame_keepsLines : KeepsLines s (s.startEnrolFrame ln) := by
  by_cases ready : (s.line ln).seq = .enrolling ∧ (s.line ln).exchange = none ∧ s.rested ln = true
  · obtain ⟨enrolling, free, rested⟩ := ready
    cases next : (s.line ln).enrol.nextFrame with
    | none =>
      unfold State.startEnrolFrame
      dsimp only
      rw [if_pos ⟨enrolling, free, rested⟩, next]
      exact .refl s
    | some frame =>
      rw [s.startEnrolFrame_of_next ln enrolling free rested next]
      exact State.setLine_keepsLines fun sound =>
        LineRec.sound_of_calls ((sound.settled (by rw [enrolling]; decide)).transfer sound.coherent) enrolling
          (sound.enrolling enrolling).1 rfl (EnrolRecord.calls_nextFrame next _ _)
  · unfold State.startEnrolFrame
    dsimp only
    rw [if_neg ready]
    exact .refl s

/-! ### The pick (R144 to R147) -/

/-- R144, R145: a SET or POLL exchange begins on an IDLE line with no disable pending. -/
theorem LineRec.Sound.serving {r : LineRec} (h : r.Sound) (idle : r.seq = .idle) {x : Exchange}
    (served : x.frame.slotAddress.isSome = true) (phase : x.phase = .frame) :
    { r with seq := .sending, exchange := some x }.Sound :=
  LineRec.sound_of_served ((h.settled (by rw [idle]; decide)).transfer h.coherent) rfl served (.inl ⟨rfl, phase⟩)

variable {s} in
theorem State.setLine_of_slots {v : State} (frame : v = { s with slots := v.slots }) (ln : LineNo) (r : LineRec) :
    v.setLine ln r = { s with slots := (v.setLine ln r).slots, lines := (v.setLine ln r).lines } :=
  congrArg (fun w : State => { w with lines := (v.setLine ln r).lines }) frame

/-- R138, R146: what of the part a SET exchange that begins changes, but for its slot. -/
theorem State.startSet_spec (n : SlotNo) (f : Fixture) :
    ∀ u, u = s.startSet ln n f →
      u = { s with slots := u.slots, lines := u.lines } ∧ (∀ m, m ≠ n → u.slot m = s.slot m) ∧
        (∀ k, k ≠ ln → u.line k = s.line k) ∧
        u.line ln =
          { s.line ln with
            seq := .sending
            exchange := some
              { frame := .set n f.address (s.buildAim n f).pan (s.buildAim n f).tilt (s.buildColour n f).1
                rate := (s.line ln).effective, phase := .frame
                ends := s.micros + (s.line ln).effective.charMicros * (7 + 2 * (s.buildColour n f).1.length) } } := by
  rintro u rfl
  obtain ⟨v, built⟩ : ∃ v, v = (s.evaluatedAll n).setSlot n
    { s.builtSlot n f with fades := ((s.evaluatedAll n).slot n).fades } := ⟨_, rfl⟩
  have frame : v = { s with slots := v.slots } := by rw [built]; rfl
  have slots : ∀ m, m ≠ n → v.slot m = s.slot m := fun m hm => by
    rw [built, State.setSlot_slot_ne _ _ hm, State.evaluatedAll_slot, if_neg hm]
  have line : ∀ k, v.line k = s.line k := fun k => by rw [frame]; rfl
  have micros : v.micros = s.micros := by rw [frame]
  have begun : s.startSet ln n f = v.setLine ln { v.line ln with
      seq := .sending
      exchange := some
        { frame := .set n f.address (s.buildAim n f).pan (s.buildAim n f).tilt (s.buildColour n f).1
          rate := (s.line ln).effective, phase := .frame
          ends := v.micros + (s.line ln).effective.charMicros * (7 + 2 * (s.buildColour n f).1.length) } } := by
    unfold State.startSet State.beginExchange
    dsimp only
    rw [← built, State.setLine_setLine, State.setLine_line_self, LineFrame.bytes_length]
    rfl
  rw [begun, line, micros]
  refine ⟨State.setLine_of_slots frame ln _, slots, fun k hk => ?_, State.setLine_line_self ..⟩
  rw [State.setLine_line_ne _ _ hk, line]

theorem State.startPoll_eq (n : SlotNo) (f : Fixture) :
    s.startPoll ln n f =
      (s.setSlot n { s.slot n with fixture := some { f with pollTime := some s.stampNow } }).setLine ln { s.line ln with
        seq := .sending
        exchange := some { frame := .poll n f.address, rate := (s.line ln).effective, phase := .frame
                           ends := s.micros + (s.line ln).effective.charMicros * 3 } } := by
  unfold State.startPoll State.beginExchange
  dsimp only
  rw [State.setLine_setLine, State.setLine_line_self, LineFrame.bytes_length]
  rfl

theorem State.startJoining_eq :
    s.startJoining ln = s.setLine ln { s.line ln with
      seq := .enrolling
      enrol := EnrolRecord.start .joining .calling
      lastCall := some s.stampNow
      exchange := some { frame := .call, rate := .r250, phase := .frame, ends := s.micros + 120 } } := by
  unfold State.startJoining State.beginExchange
  rw [State.setLine_setLine, State.setLine_line_self, LineFrame.bytes_length]
  rfl

theorem State.pick_keepsLines : KeepsLines s (s.pick ln) := by
  unfold State.pick
  refine .ite (fun may => ?_) fun _ => .refl s
  have idle : (s.line ln).seq = .idle := by
    simp only [State.mayPick, Bool.and_eq_true, decide_eq_true_eq] at may
    exact may.1.1
  split
  · split
    · exact .refl s
    · refine .ite (fun _ => ?_) fun _ => ?_
      · rw [State.startPoll_eq]
        exact KeepsLines.trans (.of_lines (State.setSlot_lines ..)) (State.setLine_keepsLines fun sound =>
          sound.serving idle rfl rfl)
      · obtain ⟨-, -, others, own⟩ := s.startSet_spec ln _ _ _ rfl
        exact .of_line others fun sound => by rw [own]; exact sound.serving idle rfl rfl
  · refine .ite (fun _ => ?_) fun _ => .refl s
    rw [State.startJoining_eq]
    refine State.setLine_keepsLines fun sound => ?_
    refine LineRec.sound_of_calls ?_ rfl (fun h => nomatch h) rfl ?_
    · exact (sound.settled (by rw [idle]; decide)).transfer (EnrolRecord.start_coherent (by decide) _)
    · exact ⟨rfl, (fun _ _ h => nomatch h), fun _ => ⟨rfl, rfl⟩, fun _ h => nomatch h⟩

/-! ### Setup requests (R38, R136, R147, R148) -/

/-- R136: the settings of a SET_LINE, in their ranges, with the rest of the record. -/
theorem LineRec.withSettings_inRange (r : LineRec) (enabled : Bool) (rate : Rate) (window refresh join : Nat) :
    (r.withSettings enabled rate window refresh join).InRange :=
  ⟨clampBetween_range _ (by decide), clampBetween_range _ (by decide), clampBetween_range _ (by decide)⟩

/-- R136, R142: a SET_LINE has stored its settings and brought the effective rate up to date. -/
def State.storeSettings (s : State) (x : LineSettings) : State :=
  (s.setLine x.line ((s.line x.line).withSettings x.enabled x.rate x.replyWindow x.refreshPeriod x.joinPeriod)).recompute
    x.line

theorem State.takeSetLine_eq (l : Link) (x : LineSettings) (f : Frame) :
    s.takeSetLine l x f =
      (if x.enabled then (s.storeSettings x).enable x.line else (s.storeSettings x).disable x.line).answer l f
        (takenStatus x.clamped) .none := rfl

/-- R136: the line record with the settings of a SET_LINE. -/
def LineRec.stored (r : LineRec) (x : LineSettings) (rate : Rate) : LineRec :=
  { r.withSettings x.enabled x.rate x.replyWindow x.refreshPeriod x.joinPeriod with effective := rate }

theorem State.storeSettings_eq (x : LineSettings) :
    s.storeSettings x = s.setLine x.line ((s.line x.line).stored x ((s.storeSettings x).slowest x.line)) := by
  have rate : (s.storeSettings x).slowest x.line = State.slowest (s.setLine x.line ((s.line x.line).withSettings
      x.enabled x.rate x.replyWindow x.refreshPeriod x.joinPeriod)) x.line :=
    State.slowest_congr _ rfl (by rw [State.storeSettings, State.recompute, State.setLine_line_self])
  rw [rate, State.storeSettings, State.recompute, State.setLine_setLine, State.setLine_line_self]
  rfl

section
variable {s ln} {v : State}

/-- R148: enabled on, on a line that held the settings with no exchange while OFF. -/
theorem State.enable_keepsLines {x : LineSettings} {rate : Rate} (others : ∀ k, k ≠ x.line → v.line k = s.line k)
    (own : v.line x.line = (s.line x.line).stored x rate) (enabled : x.enabled = true) :
    KeepsLines s (v.enable x.line) := by
  have range := (s.line x.line).withSettings_inRange x.enabled x.rate x.replyWindow x.refreshPeriod x.joinPeriod
  unfold State.enable
  dsimp only
  split
  · rename_i off
    rw [own] at off
    refine .of_line (fun k hk => (State.setLine_line_ne _ _ hk).trans (others k hk)) fun sound => ?_
    obtain ⟨free, -⟩ := sound.resting (.inl off)
    rw [State.setLine_line_self, own]
    refine LineRec.sound_of_no_exchange ⟨range.window, range.refresh, range.join⟩
      (EnrolRecord.start_coherent (by decide) _) free (sound.not_pending free) (iff_of_false (fun h => nomatch h) ?_)
      (.inr ⟨rfl, fun h => nomatch h⟩)
    exact fun disabled => by rw [show x.enabled = false from disabled] at enabled; cases enabled
  · rename_i awake
    rw [own] at awake
    refine .of_line (fun k hk => (State.setLine_line_ne _ _ hk).trans (others k hk)) fun sound => ?_
    rw [State.setLine_line_self, own]
    exact
      { sound with
        window_range := range.window
        refresh_range := range.refresh
        join_range := range.join
        off_iff := iff_of_false awake fun h => by rw [show x.enabled = false from h.1] at enabled; cases enabled
        pending_waits := fun h => nomatch h }

/-- R147: enabled off takes effect at once, or waits for the exchange in flight. -/
theorem State.disable_keepsLines {x : LineSettings} {rate : Rate} (others : ∀ k, k ≠ x.line → v.line k = s.line k)
    (own : v.line x.line = (s.line x.line).stored x rate) (disabled : x.enabled = false) :
    KeepsLines s (v.disable x.line) := by
  have range : ((s.line x.line).stored x rate).InRange :=
    let range := (s.line x.line).withSettings_inRange x.enabled x.rate x.replyWindow x.refreshPeriod x.joinPeriod
    ⟨range.window, range.refresh, range.join⟩
  have stays : (s.line x.line).seq = .off ∨ (s.line x.line).disablePending = true →
      (s.line x.line).Sound → ((s.line x.line).stored x rate).Sound := fun held sound =>
    { sound with
      window_range := range.window
      refresh_range := range.refresh
      join_range := range.join
      off_iff := by
        refine sound.off_iff.trans ⟨fun h => ⟨disabled, h.2⟩, fun h => ⟨?_, h.2⟩⟩
        rcases held with off | pending
        · exact (sound.off_iff.mp off).1
        · exact (sound.pending_waits pending).1
      pending_waits := fun h => ⟨disabled, (sound.pending_waits h).2⟩ }
  unfold State.disable
  dsimp only
  rw [own]
  split
  · rename_i held
    exact .of_line others fun sound => by rw [own]; exact stays held sound
  · rename_i awake
    split
    · rename_i idle
      have lost := v.goOff_spec x.line
      refine .of_line (fun k hk => (lost.others k hk).trans (others k hk)) fun sound => ?_
      obtain ⟨free, rest⟩ := sound.resting (.inr idle)
      rw [lost.own, own]
      exact LineRec.sound_of_no_exchange ⟨range.window, range.refresh, range.join⟩ sound.coherent free rfl
        (iff_of_true rfl disabled) (.inl ⟨.inl rfl, rest⟩)
    · split
      · rename_i enrolling
        have lost := v.abandonAndGoOff_spec x.line
        refine .of_line (fun k hk => (lost.others k hk).trans (others k hk)) fun sound => ?_
        rw [lost.own, own]
        exact LineRec.off_sound range sound.coherent disabled enrolling.2
      · rename_i busy
        refine .of_line (fun k hk => (State.setLine_line_ne _ _ hk).trans (others k hk)) fun sound => ?_
        have flight : (s.line x.line).exchange.isSome = true := by
          cases seq : (s.line x.line).seq with
          | off => exact absurd (.inl seq) awake
          | idle => rename_i idle; exact absurd seq idle
          | sending => obtain ⟨y, flight, -⟩ := sound.sending seq; rw [flight]; rfl
          | awaiting => obtain ⟨y, flight, -⟩ := sound.awaiting seq; rw [flight]; rfl
          | enrolling => exact Option.isSome_iff_ne_none.mpr fun free => busy ⟨seq, free⟩
        rw [State.setLine_line_self]
        exact
          { sound with
            window_range := range.window
            refresh_range := range.refresh
            join_range := range.join
            off_iff := iff_of_false (fun off => awake (.inl off)) fun h => nomatch h.2
            pending_waits := fun _ => ⟨disabled, flight⟩ }

end

theorem State.takeSetLine_keepsLines (l : Link) (x : LineSettings) (f : Frame) :
    KeepsLines s (s.takeSetLine l x f) := by
  have stored := s.storeSettings_eq x
  generalize (s.storeSettings x).slowest x.line = rate at stored
  have others : ∀ k, k ≠ x.line → (s.storeSettings x).line k = s.line k := fun k hk => by
    rw [stored, State.setLine_line_ne _ _ hk]
  have own : (s.storeSettings x).line x.line = (s.line x.line).stored x rate := by
    rw [stored, State.setLine_line_self]
  rw [State.takeSetLine_eq]
  refine KeepsLines.answer (.ite (fun enabled => ?_) fun disabled => ?_) l f _ _
  · exact State.enable_keepsLines others own enabled
  · exact State.disable_keepsLines others own (Bool.eq_false_iff.mpr disabled)

/-- R38: the enrolment conditions go, one by one. -/
def State.clearConditions (s : State) (ln : LineNo) : State :=
  ((s.putCondition ln .enrolFailed false).putCondition ln .tableFull false).putCondition ln .duplicateId false

theorem State.clearConditions_slotEffects : SlotEffects s (s.clearConditions ln) ln :=
  ((s.putCondition_slotEffects ln _ _).trans (State.putCondition_slotEffects _ ln _ _)).trans
    (State.putCondition_slotEffects _ ln _ _)

theorem State.beginEnrolment_eq (operation : Operation) (subState : SubState) :
    s.beginEnrolment ln operation subState = (s.clearConditions ln).setLine ln
      { (s.clearConditions ln).line ln with
        joinSuspended := false
        enrol := EnrolRecord.start operation subState
        seq := if ((s.clearConditions ln).line ln).seq = .idle then .enrolling
          else ((s.clearConditions ln).line ln).seq } := rfl

/-- R38, R46: an operation begins on a line that is not OFF and has none: IDLE, or with a SET or POLL exchange. -/
theorem LineRec.Sound.enrol {r : LineRec} (h : r.Sound) (awake : r.seq ≠ .off) (rest : r.enrol.operation = .none)
    {operation : Operation} (running : operation ≠ .none) (subState : SubState) :
    { r with joinSuspended := false, enrol := EnrolRecord.start operation subState
             seq := if r.seq = SeqState.idle then .enrolling else r.seq }.Sound := by
  have coherent := EnrolRecord.start_coherent running subState
  have settled := (h.settled awake)
  cases seq : r.seq with
  | off => exact absurd seq awake
  | idle =>
    obtain ⟨free, -⟩ := h.resting (.inr seq)
    have live := h.not_pending free
    refine LineRec.sound_of_no_exchange ⟨h.window_range, h.refresh_range, h.join_range⟩ coherent free live
      (iff_of_false (fun e => nomatch e) fun off => settled.not_off ⟨off, live⟩) (.inr ⟨rfl, running⟩)
  | sending =>
    obtain ⟨x, flight, served, phase⟩ := h.sending seq
    exact LineRec.sound_of_served (settled.transfer coherent) flight served (.inl ⟨rfl, phase⟩)
  | awaiting =>
    obtain ⟨x, flight, served, phase⟩ := h.awaiting seq
    exact LineRec.sound_of_served (settled.transfer coherent) flight served (.inr ⟨rfl, phase⟩)
  | enrolling => exact absurd rest (h.enrolling seq).1

theorem State.takeEnrol_keepsLines (l : Link) {operation : Operation} (running : operation ≠ .none)
    (subState : SubState) (f : Frame) : KeepsLines s (s.takeEnrol l ln operation subState f) := by
  unfold State.takeEnrol
  refine .ite (fun _ => s.refuse_keepsLines l f _) fun awake => .ite (fun _ => s.refuse_keepsLines l f _) fun rest => ?_
  refine KeepsLines.answer ?_ l f _ _
  have cleared := s.clearConditions_slotEffects ln
  rw [State.beginEnrolment_eq]
  generalize s.clearConditions ln = v at cleared
  have seq : (v.line ln).seq = (s.line ln).seq := by rw [cleared.own]
  have enrol : (v.line ln).enrol = (s.line ln).enrol := by rw [cleared.own]
  refine cleared.keepsLines.trans (State.setLine_keepsLines fun sound => ?_)
  exact sound.enrol (fun off => awake (.inl (seq ▸ off))) (by rw [enrol]; exact not_not.mp rest) running subState

end

end Sys2Proof.Machine
end

section
/-! PROOF. Every command keeps the line records as they are promised (O56): those of the lines by their events, and every
other by leaving the lines. -/

namespace Sys2Proof.Machine

section
variable {s t : State}

/-! ### Rows -/

theorem TableKept.keepsLines (h : TableKept s t) : KeepsLines s t := .of_lines h.lines

/-- A command that goes by in reset, and otherwise has an effect that keeps the lines. -/
theorem linesSound_of_running {effect : State → State} (h : (.next (s.whenRunning effect) : Result) = .next t)
    (he : KeepsLines s (effect s)) (sound : s.LinesSound) : t.LinesSound := by
  cases h
  unfold State.whenRunning
  split
  · exact sound
  · rename_i running
    exact fun _ => he (sound (Bool.eq_false_iff.mpr running))

/-- A request row whose takings keep the lines. -/
theorem linesSound_of_taking {l : Link} {take : State → Frame → Request → Option State}
    (h : (.next (s.whenRunning fun s => s.takeInHand l (take s)) : Result) = .next t)
    (ht : ∀ f r u, take s f r = some u → KeepsLines s u) (sound : s.LinesSound) : t.LinesSound := by
  refine linesSound_of_running h ?_ sound
  unfold State.takeInHand
  split
  · exact .refl s
  · rename_i f _
    split
    · exact .refl s
    · rename_i r _
      cases taken : take s f r with
      | none => exact .refl s
      | some u => exact ht f r u taken

theorem State.withSlots_keepsLines {l : Link} {f : Frame} {set : SlotSet} {go : List SlotNo → State}
    (h : ∀ slots, KeepsLines s (go slots)) : KeepsLines s (s.withSlots l f set go) := by
  unfold State.withSlots
  split
  · exact s.refuse_keepsLines l f _
  · exact h _

theorem State.withPermission_keepsLines {l : Link} {f : Frame} {b : Bool} {go : State} (h : KeepsLines s go) :
    KeepsLines s (s.withPermission l f b go) := .ite (fun _ => h) fun _ => s.refuse_keepsLines l f _

theorem ClaimWork.keepsLines (h : ClaimWork s t) : KeepsLines s t := h.kept.keepsLines

theorem PairWork.keepsLines (h : PairWork s t) : KeepsLines s t := h.kept.keepsLines

end

section
variable (s : State)

/-! ### Requests that leave the lines -/

theorem State.takeSeize_keepsLines (l : Link) (g : Group) (slots : List SlotNo) (f : Frame) :
    KeepsLines s (s.takeSeize l g slots f) :=
  .ite (fun _ => s.refuse_keepsLines l f _) fun _ =>
    ((s.seizeSlots_work l g slots).trans (State.raiseDisplaced_work _ l g _)).keepsLines.answer l f _ _

theorem State.takeRelease_keepsLines (l : Link) (g : Group) (slots : List SlotNo) (fade : Nat) (f : Frame) :
    KeepsLines s (s.takeRelease l g slots fade f) :=
  .ite (fun _ => s.refuse_keepsLines l f _) fun _ => (s.releaseClaims_work _ _ _).keepsLines.answer l f _ _

theorem State.stepOrRefuse_keepsLines (q : StepRequest) (slots : List SlotNo) (steps : List StepFields) (f : Frame) :
    KeepsLines s (s.stepOrRefuse q slots steps f) := by
  unfold State.stepOrRefuse
  split
  · exact s.refuse_keepsLines _ f _
  · exact (s.takeStep_work q slots steps).keepsLines.answer q.link f _ _

theorem State.takeHalt_keepsLines (l : Link) (g : Group) (slots : List SlotNo) (f : Frame) :
    KeepsLines s (s.takeHalt l g slots f) :=
  .ite (fun _ => s.refuse_keepsLines l f _) fun _ => by
    have halted : ClaimWork s ((s.claimsIn l g slots).foldl State.haltClaim s) :=
      .foldl (fun s c => s.haltClaim_work c) _ s
    exact (halted.trans (State.settleSteps_work _)).keepsLines.answer l f _ _

theorem State.takeSetMode_keepsLines (l : Link) (g : Group) (slots : List SlotNo) (mode : Mode) (low : Nat) (f : Frame) :
    KeepsLines s (s.takeSetMode l g slots mode low f) :=
  .ite (fun _ => s.refuse_keepsLines l f _) fun _ =>
    (ClaimWork.foldl (fun s c => s.setModeOf_work mode low c) _ s).keepsLines.answer l f _ _

theorem State.takeAsk_keepsLines (l : Link) (f : Frame) : KeepsLines s (s.takeAsk l f) :=
  .ite (fun _ => s.refuse_keepsLines l f _) fun _ =>
    ((s.setAsk_pairWork true).trans (State.raiseTo_pairWork _ _ _)).keepsLines.answer l f _ _

theorem State.takeDecline_keepsLines (l : Link) (f : Frame) : KeepsLines s (s.takeDecline l f) := by
  have declined : PairWork s (({ s with pair := { s.pair with askPending := false } } : State).raiseTo s.pair.standbyLink
      (.handoverDeclined l)) := (s.setAsk_pairWork false).trans (State.raiseTo_pairWork _ _ _)
  exact (PairWork.ite declined (.refl s)).keepsLines.answer l f _ _

theorem State.takeOverride_keepsLines (l : Link) (on : Bool) (fade : Nat) (f : Frame) :
    KeepsLines s (s.takeOverride l on fade f) :=
  (PairWork.ite (.refl s) (s.changeOverride_pairWork on (fun _ => clampTime_le fade) _)).keepsLines.answer l f _ _

theorem State.takeSafeClear_keepsLines (l : Link) (fade : Nat) (f : Frame) :
    KeepsLines s (s.takeSafeClear l fade f) := by
  unfold State.takeSafeClear
  split
  · exact s.refuse_keepsLines l f _
  · exact (KeepsLines.refl s).answer l f _ _
  · have cleared : KeepsLines s (s.clearSafety (clampTime fade)) :=
      .of_lines (s.clearSafety_work (clampTime_le fade)).lines
    exact cleared.answer l f _ _

theorem State.takeSetType_keepsLines (l : Link) (code : BitVec 16) (m : Matrix) (f : Frame) :
    KeepsLines s (s.takeSetType l code m f) := by
  have wrote : ∀ k, KeepsLines s (s.writeType k code m) := fun k => .of_lines (by rw [(s.writeType_spec k code m).1])
  unfold State.takeSetType
  split
  · exact (wrote _).answer l f _ _
  · split
    · exact (wrote _).answer l f _ _
    · exact s.refuse_keepsLines l f _

theorem State.forgetSlot_lines (n : SlotNo) : (s.forgetSlot n).lines = s.lines := by
  unfold State.forgetSlot
  split <;> rfl

theorem State.takeForget_keepsLines (l : Link) (slots : List SlotNo) (f : Frame) :
    KeepsLines s (s.takeForget l slots f) := by
  have forgot : ∀ (slots : List SlotNo) (u : State), KeepsLines u (slots.foldl State.forgetSlot u) := fun slots => by
    induction slots with
    | nil => exact .refl
    | cons n rest ih => exact fun u => (KeepsLines.of_lines (u.forgetSlot_lines n)).trans (ih _)
  exact .ite (fun _ => s.refuse_keepsLines l f _) fun _ => (forgot slots s).answer l f _ _

theorem State.ageStamp_keepsLines (which : StampRef) : KeepsLines s (s.ageStamp which) := by
  cases which with
  | lastCall ln => exact State.setLine_keepsLines fun sound => { sound with }
  | crossfade n g => exact .of_lines (State.setFade_lines ..)
  | lastSent n => exact .of_lines (State.mapFixture_lines ..)
  | poll n => exact .of_lines (State.mapFixture_lines ..)
  | follower n => exact .of_lines (State.mapFixture_lines ..)

end

/-! ### Every command -/

theorem exec_linesSound (c : Instr) (s t : State) (h : exec c s = .next t) (sound : s.LinesSound) : t.LinesSound := by
  cases c with
  | powerOnReset cause =>
    cases h
    cases cause with
    | supplyRise => exact fun running => nomatch running
    | resetNLow => dsimp only; split <;> [exact fun running => nomatch running; exact sound]
  | leaveReset => cases h; split <;> [exact fun _ => State.reset_linesSound rfl; exact sound]
  | resetNChange high => cases h; split <;> exact sound
  | safeNChange high => cases h; split <;> exact sound
  | safetyAssertion =>
    exact linesSound_of_running h (.ite (fun _ => .of_lines s.assertSafety_work.lines) fun _ => .refl s) sound
  | safetyRelease =>
    exact linesSound_of_running h (.ite (fun _ => .of_lines s.releaseSafety_work.lines) fun _ => .refl s) sound
  | stampBecomesOld which => exact linesSound_of_running h (s.ageStamp_keepsLines which) sound
  | frameArrival l chars =>
    refine linesSound_of_running h ?_ sound
    have cleared : PairWork s (s.setLink l { s.link l with assembler := Assembler.empty }) := s.setLink_pairWork l rfl
    dsimp only
    split
    · exact cleared.keepsLines
    · exact (cleared.trans (State.arrive_pairWork _ l _)).keepsLines
  | silenceTimeout l =>
    exact linesSound_of_running h (.ite (fun _ => (s.silence_pairWork l).keepsLines) fun _ => .refl s) sound
  | transmitStart l => exact linesSound_of_running h (.of_lines (State.setLink_lines ..)) sound
  | transmitDone l => exact linesSound_of_running h (.of_lines (State.setLink_lines ..)) sound
  | unknownKind l =>
    refine linesSound_of_running h ?_ sound
    split
    · exact .refl s
    · split
      · exact s.refuse_keepsLines l _ _
      · exact .refl s
  | seize l =>
    refine linesSound_of_taking h (fun f r u e => ?_) sound
    split at e <;> cases e
    exact State.withSlots_keepsLines fun slots => s.takeSeize_keepsLines l _ slots f
  | release l =>
    refine linesSound_of_taking h (fun f r u e => ?_) sound
    split at e <;> cases e
    exact State.withSlots_keepsLines fun slots => s.takeRelease_keepsLines l _ slots _ f
  | stepReplace l =>
    refine linesSound_of_taking h (fun f r u e => ?_) sound
    split at e <;> cases e
    exact State.withSlots_keepsLines fun slots => s.stepOrRefuse_keepsLines ⟨l, _, _, _, _⟩ slots _ f
  | stepAppend l =>
    refine linesSound_of_taking h (fun f r u e => ?_) sound
    split at e <;> cases e
    exact State.withSlots_keepsLines fun slots => s.stepOrRefuse_keepsLines ⟨l, _, _, _, _⟩ slots _ f
  | halt l =>
    refine linesSound_of_taking h (fun f r u e => ?_) sound
    split at e <;> cases e
    exact State.withSlots_keepsLines fun slots => s.takeHalt_keepsLines l _ slots f
  | setMode l =>
    refine linesSound_of_taking h (fun f r u e => ?_) sound
    split at e <;> cases e
    exact State.withSlots_keepsLines fun slots => s.takeSetMode_keepsLines l _ slots _ _ f
  | stepExpiry => exact linesSound_of_running h s.retireDue_work.keepsLines sound
  | handoverAsk l =>
    refine linesSound_of_taking h (fun f r u e => ?_) sound
    split at e <;> cases e
    exact State.withPermission_keepsLines (s.takeAsk_keepsLines l f)
  | handoverDecline l =>
    refine linesSound_of_taking h (fun f r u e => ?_) sound
    split at e <;> cases e
    exact State.withPermission_keepsLines (s.takeDecline_keepsLines l f)
  | handoverGive l =>
    refine linesSound_of_taking h (fun f r u e => ?_) sound
    split at e <;> cases e
    exact State.withPermission_keepsLines ((s.swap_pairWork (fun _ => clampTime_le _) .give).keepsLines.answer l f _ _)
  | overrideOn l =>
    refine linesSound_of_taking h (fun f r u e => ?_) sound
    split at e <;> cases e
    exact State.withPermission_keepsLines (s.takeOverride_keepsLines l _ _ f)
  | overrideOff l =>
    refine linesSound_of_taking h (fun f r u e => ?_) sound
    split at e <;> cases e
    exact State.withPermission_keepsLines (s.takeOverride_keepsLines l _ _ f)
  | setPair l =>
    refine linesSound_of_taking h (fun f r u e => ?_) sound
    split at e <;> cases e
    exact State.withPermission_keepsLines (.of_lines (State.answer_lines ..))
  | safeClear l =>
    refine linesSound_of_taking h (fun f r u e => ?_) sound
    split at e <;> cases e
    exact State.withPermission_keepsLines (s.takeSafeClear_keepsLines l _ f)
  | setLine l =>
    refine linesSound_of_taking h (fun f r u e => ?_) sound
    split at e <;> cases e
    exact State.withPermission_keepsLines (s.takeSetLine_keepsLines l _ f)
  | enrolLineFull l =>
    refine linesSound_of_taking h (fun f r u e => ?_) sound
    split at e <;> cases e
    exact State.withPermission_keepsLines (s.takeEnrol_keepsLines _ l (by decide) _ f)
  | enrolLineJoin l =>
    refine linesSound_of_taking h (fun f r u e => ?_) sound
    split at e <;> cases e
    exact State.withPermission_keepsLines (s.takeEnrol_keepsLines _ l (by decide) _ f)
  | setType l =>
    refine linesSound_of_taking h (fun f r u e => ?_) sound
    split at e <;> cases e
    exact State.withPermission_keepsLines (s.takeSetType_keepsLines l _ _ f)
  | forget l =>
    refine linesSound_of_taking h (fun f r u e => ?_) sound
    split at e <;> cases e
    exact State.withSlots_keepsLines fun slots => State.withPermission_keepsLines (s.takeForget_keepsLines l slots f)
  | setLink l =>
    refine linesSound_of_taking h (fun f r u e => ?_) sound
    split at e <;> cases e
    exact State.withPermission_keepsLines (s.takeSetLink_pairWork l _ _ _ f).keepsLines
  | rigClear l =>
    refine linesSound_of_taking h (fun f r u e => ?_) sound
    split at e <;> cases e
    exact State.withPermission_keepsLines (s.clearRig_work.keepsLines.answer l f _ _)
  | keep l =>
    refine linesSound_of_taking h (fun f r u e => ?_) sound
    split at e <;> cases e
    exact (KeepsLines.refl s).answer l f _ _
  | readSlot l =>
    refine linesSound_of_taking h (fun f r u e => ?_) sound
    split at e
    · split at e <;> cases e
      · exact s.refuse_keepsLines l f _
      · have evaluated : ∀ n, KeepsLines s (s.evaluatedAll n) := fun n => .of_lines rfl
        exact (evaluated _).answer l f _ _
    · cases e
  | readClaims l =>
    refine linesSound_of_taking h (fun f r u e => ?_) sound
    split at e
    · split at e <;> cases e
      · exact s.refuse_keepsLines l f _
      · exact (s.evaluated_work _ _).keepsLines.answer l f _ _
    · cases e
  | readLine l =>
    refine linesSound_of_taking h (fun f r u e => ?_) sound
    split at e <;> cases e
    exact (s.putCondition_slotEffects _ _ _).keepsLines.answer l f _ _
  | readType l =>
    refine linesSound_of_taking h (fun f r u e => ?_) sound
    split at e <;> cases e
    exact (KeepsLines.refl s).answer l f _ _
  | readPart l =>
    refine linesSound_of_taking h (fun f r u e => ?_) sound
    split at e <;> cases e
    exact (KeepsLines.refl s).answer l f _ _
  | schedulerPick ln => exact linesSound_of_running h (s.pick_keepsLines ln) sound
  | enrolFrameStart ln => exact linesSound_of_running h (s.startEnrolFrame_keepsLines ln) sound
  | lineFrameEnd ln => exact linesSound_of_running h (s.endLineFrame_keepsLines ln) sound
  | replyEnd ln reply => exact linesSound_of_running h (s.endReply_keepsLines ln reply) sound
  | replyWindowExpiry ln => exact linesSound_of_running h (s.expireReply_keepsLines ln) sound
  | lateCharacters ln =>
    refine linesSound_of_running h ?_ sound
    exact .ite (fun _ => State.setLine_keepsLines fun sound => { sound with }) fun _ => .refl s
  | dropDone ln => exact linesSound_of_running h (s.endDrop_keepsLines ln) sound
  | callDone ln => exact linesSound_of_running h (s.openArbitration_keepsLines ln) sound
  | arbitrationEnd ln samples => exact linesSound_of_running h (s.endArbitration_keepsLines ln samples) sound
  | assignDone ln => exact linesSound_of_running h (s.endAssign_keepsLines ln) sound
  | capsReceived ln reply =>
    refine linesSound_of_running h ?_ sound
    split
    · exact .refl s
    · rename_i opened
      obtain ⟨flight, frame, -⟩ := State.openAssign_eq_some.mp opened
      split
      · exact .refl s
      · exact .ite (fun _ => State.receiveCaps_keepsLines flight frame _ _ _) fun _ => .refl s
  | capsWindowExpiry ln =>
    refine linesSound_of_running h ?_ sound
    split
    · exact .refl s
    · rename_i opened
      obtain ⟨flight, frame, -⟩ := State.openAssign_eq_some.mp opened
      exact .ite (fun _ => State.capsFailed_keepsLines flight frame _) fun _ => .refl s
  | capsFailure ln reply =>
    refine linesSound_of_running h ?_ sound
    split
    · exact .refl s
    · rename_i opened
      obtain ⟨flight, frame, -⟩ := State.openAssign_eq_some.mp opened
      split
      · exact .refl s
      · exact .ite (fun _ => State.capsFailed_keepsLines flight frame _) fun _ => .refl s

/-- Settles O56: an event of a line leaves a sound record, and neither time nor any other command touches the lines. -/
theorem linesStaySound : Obligations.LinesStaySound := fun s t sound h => by
  unfold step at h
  split at h
  · rename_i c rest _
    exact exec_linesSound c { s with pending := rest } t h sound
  · cases h
    exact sound

end Sys2Proof.Machine
end

section
/-! PROOF. SET_LINE (O38; R39, R50, R135, R136, R142, R147, R148). -/

namespace Sys2Proof.Machine

section
variable {s u : State} {l : Link} {x : LineSettings} {f : Frame} {ns : List Notice}

/-- R136: the settings of a SET_LINE are in the line's record, whose sequencer, enrolment record and pending disable may have
changed with them; the links have heard `ns`. -/
structure SettingsTaken (s u : State) (x : LineSettings) (ns : List Notice) : Prop where
  frame : u = { s with links := u.links, slots := u.slots, lines := u.lines }
  told : Told s u (fun _ => ns)
  others : ∀ k, k ≠ x.line → u.line k = s.line k
  own : u.line x.line =
    { (s.line x.line).stored x (u.slowest x.line) with
      seq := (u.line x.line).seq, enrol := (u.line x.line).enrol, disablePending := (u.line x.line).disablePending }

/-- R6, R136: the answer to the SET_LINE, and the line record, whatever the last clause `p` says of the line. -/
theorem SettingsTaken.answered (h : SettingsTaken s u x ns) (l : Link) (f : Frame) (status : Status) {p : Prop}
    (last : p) :
    ∀ t, t = u.answer l f status .none →
    Answered s t l f status .none ∧ LinksKept s t l ∧
      t = { s with links := t.links, slots := t.slots, lines := t.lines } ∧ (∀ k, k ≠ x.line → t.line k = s.line k) ∧
      (t.line x.line).enabled = x.enabled ∧ (t.line x.line).requested = x.rate ∧
      (t.line x.line).replyWindow = max 100 (min 2000 x.replyWindow) ∧
      (t.line x.line).refreshPeriod = max 100 (min 5000 x.refreshPeriod) ∧
      (t.line x.line).joinPeriod = max 250 (min 10000 x.joinPeriod) ∧
      (t.line x.line).effective = t.slowest x.line ∧ (t.line x.line).exchange = (s.line x.line).exchange ∧
      (t.line x.line).lastCall = (s.line x.line).lastCall ∧
      (t.line x.line).joinSuspended = (s.line x.line).joinSuspended ∧
      (t.line x.line).conditions = (s.line x.line).conditions ∧ p := by
  rintro t rfl
  obtain ⟨frame, told, others, own⟩ := h
  have field : ∀ {α : Type} (g : LineRec → α), g ((u.answer l f status .none).line x.line) = _ := fun g => congrArg g own
  exact ⟨s.answer_answered u l f _ _ (by rw [told.hear l]), told.hear.answer_kept l f _ _,
    congrArg (fun v : State => { v with links := (u.answer l f status .none).links }) frame, others,
    field (·.enabled), field (·.requested), field (·.replyWindow), field (·.refreshPeriod), field (·.joinPeriod),
    field (·.effective), field (·.exchange), field (·.lastCall), field (·.joinSuspended), field (·.conditions), last⟩

/-- A change of the sequencer, the enrolment record and the pending disable after the settings are stored. -/
theorem SettingsTaken.of_setLine {r : LineRec} (whole : u = (s.storeSettings x).setLine x.line r)
    (own : r = { (s.line x.line).stored x ((s.storeSettings x).slowest x.line) with
      seq := r.seq, enrol := r.enrol, disablePending := r.disablePending }) : SettingsTaken s u x [] := by
  rw [s.storeSettings_eq, State.setLine_setLine] at whole
  have requested : r.requested = x.rate := congrArg LineRec.requested own
  have rate : u.slowest x.line = (s.storeSettings x).slowest x.line := by
    refine State.slowest_congr _ (by rw [whole, s.storeSettings_eq]; rfl) ?_
    rw [whole, State.setLine_line_self, requested, s.storeSettings_eq, State.setLine_line_self]
    rfl
  refine ⟨by rw [whole]; rfl, .of_links (by rw [whole]; rfl), fun k hk => ?_, ?_⟩
  · rw [whole, State.setLine_line_ne _ _ hk]
  · rw [rate, whole, State.setLine_line_self]
    exact own

/-- The line goes OFF after the settings are stored. -/
theorem SettingsTaken.of_off
    (lost : FixturesLost (s.storeSettings x) u x.line ((s.storeSettings x).line x.line).off ns) :
    SettingsTaken s u x ns := by
  have rate := State.slowest_of_none_online (onlineOf_of_onlineGone lost.gone)
  have own := lost.own
  rw [s.storeSettings_eq, State.setLine_line_self] at own
  rw [s.storeSettings_eq] at lost
  have lost := lost.after_setLine
  refine ⟨lost.frame, lost.told, lost.others, ?_⟩
  rw [rate, own]
  rfl

/-- What the links hear when the line goes OFF after the settings are stored. -/
theorem State.storeSettings_notices :
    abandonedNotices (s.storeSettings x) x.line ++ allGone (s.storeSettings x) x.line .lineOff =
      abandonedNotices s x.line ++ allGone s x.line .lineOff := by
  rw [s.storeSettings_eq]
  congr 1
  exact abandonedNotices_congr (by rw [State.setLine_line_self]; rfl)

/-- The line's record once the settings are stored. -/
theorem State.storeSettings_line :
    (s.storeSettings x).line x.line = (s.line x.line).stored x ((s.storeSettings x).slowest x.line) := by
  rw [s.storeSettings_eq, State.setLine_line_self, ← s.storeSettings_eq]

theorem State.storeSettings_slots : (s.storeSettings x).slots = s.slots := by
  rw [s.storeSettings_eq]; rfl

theorem State.goOff_eq_of_rest {ln : LineNo} (rest : (s.line ln).enrol.operation = .none) :
    s.goOff ln = s.abandonAndGoOff ln := by
  unfold State.abandonAndGoOff
  rw [if_pos rest]

/-! ### Enabled on (R147, R148) -/

/-- R148: on an OFF line a FULL enrolment begins; on any other a pending disable is cancelled. -/
theorem State.enable_spec (off_not_pending : (s.line x.line).seq = .off → (s.line x.line).disablePending = false) :
    ∀ u, u = (s.storeSettings x).enable x.line →
      SettingsTaken s u x [] ∧ u.slots = s.slots ∧ (u.line x.line).disablePending = false ∧
        if (s.line x.line).seq = .off then
          (u.line x.line).seq = .enrolling ∧ (u.line x.line).enrol = EnrolRecord.start .full .dropping
        else (u.line x.line).seq = (s.line x.line).seq ∧ (u.line x.line).enrol = (s.line x.line).enrol := by
  intro u whole
  have slots := State.storeSettings_slots (s := s) (x := x)
  have own := State.storeSettings_line (s := s) (x := x)
  unfold State.enable at whole
  dsimp only at whole
  rw [own] at whole
  by_cases off : (s.line x.line).seq = .off
  · rw [if_pos (show ((s.line x.line).stored x _).seq = .off from off)] at whole
    refine ⟨.of_setLine whole rfl, by rw [whole]; exact slots, ?_, ?_⟩
    · rw [whole, State.setLine_line_self]; exact off_not_pending off
    · rw [if_pos off, whole, State.setLine_line_self]; exact ⟨rfl, rfl⟩
  · rw [if_neg (show ¬ ((s.line x.line).stored x _).seq = .off from off)] at whole
    refine ⟨.of_setLine whole rfl, by rw [whole]; exact slots, ?_, ?_⟩
    · rw [whole, State.setLine_line_self]
    · rw [if_neg off, whole, State.setLine_line_self]; exact ⟨rfl, rfl⟩

/-! ### Enabled off (R147) -/

/-- R147: at rest, or ENROLLING with no exchange in flight, the line goes OFF at once; with an exchange in flight the
disable is pending, and on a line that is OFF nothing is left to do. -/
theorem State.disable_spec (sound : (s.line x.line).Sound) :
    ∀ u, u = (s.storeSettings x).disable x.line →
      if (s.line x.line).seq = .idle ∨ ((s.line x.line).seq = .enrolling ∧ (s.line x.line).exchange = none) then
        SettingsTaken s u x (abandonedNotices s x.line ++ allGone s x.line .lineOff) ∧ OnlineGone s u x.line ∧
          (u.line x.line).seq = .off ∧ (u.line x.line).disablePending = false ∧
          (u.line x.line).enrol.operation = .none
      else
        SettingsTaken s u x [] ∧ u.slots = s.slots ∧ (u.line x.line).seq = (s.line x.line).seq ∧
          (u.line x.line).enrol = (s.line x.line).enrol ∧
          ((s.line x.line).seq ≠ .off → (u.line x.line).disablePending = true) := by
  intro u whole
  have slots := State.storeSettings_slots (s := s) (x := x)
  have own := State.storeSettings_line (s := s) (x := x)
  have seq : ((s.storeSettings x).line x.line).seq = (s.line x.line).seq := by rw [own]; rfl
  have enrol : ((s.storeSettings x).line x.line).enrol = (s.line x.line).enrol := by rw [own]; rfl
  have exchange : ((s.storeSettings x).line x.line).exchange = (s.line x.line).exchange := by rw [own]; rfl
  have pending : ((s.storeSettings x).line x.line).disablePending = (s.line x.line).disablePending := by rw [own]; rfl
  unfold State.disable at whole
  dsimp only at whole
  rw [seq, exchange, pending] at whole
  by_cases atOnce : (s.line x.line).seq = .idle ∨ ((s.line x.line).seq = .enrolling ∧ (s.line x.line).exchange = none)
  · have off : u = (s.storeSettings x).abandonAndGoOff x.line := by
      rcases atOnce with idle | enrolling
      · obtain ⟨free, rest⟩ := sound.resting (.inr idle)
        rw [whole, if_neg (by rw [idle, sound.not_pending free]; decide), if_pos idle]
        exact State.goOff_eq_of_rest (by rw [enrol]; exact rest)
      · obtain ⟨enrolling, free⟩ := enrolling
        rw [whole, if_neg (by rw [enrolling, sound.not_pending free]; decide), if_neg (by rw [enrolling]; decide),
          if_pos ⟨enrolling, free⟩]
    have lost := (s.storeSettings x).abandonAndGoOff_spec x.line
    rw [← off, State.storeSettings_notices] at lost
    rw [if_pos atOnce]
    refine ⟨.of_off lost, onlineGone_of_slots lost.gone slots.symm rfl, ?_, ?_, ?_⟩
    · rw [lost.own]; rfl
    · rw [lost.own]; rfl
    · rw [lost.own]; exact EnrolRecord.abandoned_operation _
  · obtain ⟨busy, flight⟩ := not_or.mp atOnce
    rw [if_neg busy, if_neg flight] at whole
    rw [if_neg atOnce]
    split at whole
    · rename_i held
      have taken : SettingsTaken s u x [] := .of_setLine (r := (s.storeSettings x).line x.line)
        (by rw [whole, s.storeSettings_eq, State.setLine_setLine, State.setLine_line_self]) (by rw [own])
      rw [whole] at taken ⊢
      exact ⟨taken, slots, seq, enrol, fun awake => pending.trans (held.resolve_left awake)⟩
    · refine ⟨.of_setLine whole ?_, by rw [whole]; exact slots, ?_⟩
      · rw [own]; rfl
      · rw [whole, State.setLine_line_self]
        exact ⟨rfl, enrol, fun _ => rfl⟩

/-! ### The request (R136) -/

theorem LineSettings.takenStatus_eq (x : LineSettings) :
    takenStatus x.clamped =
      if x.replyWindow < 100 ∨ 2000 < x.replyWindow ∨ x.refreshPeriod < 100 ∨ 5000 < x.refreshPeriod ∨
        x.joinPeriod < 250 ∨ 10000 < x.joinPeriod then .clamped else .ok := by
  have out : x.clamped = true ↔ x.replyWindow < 100 ∨ 2000 < x.replyWindow ∨ x.refreshPeriod < 100 ∨
      5000 < x.refreshPeriod ∨ x.joinPeriod < 250 ∨ 10000 < x.joinPeriod := by
    unfold LineSettings.clamped clampBetween
    rw [Bool.or_eq_true, Bool.or_eq_true, decide_eq_true_iff, decide_eq_true_iff, decide_eq_true_iff]
    omega
  unfold takenStatus
  simp only [out]

end

/-- Settles O38: the settings are stored whatever becomes of the line, and the line goes on by the enabled setting. -/
theorem setLineSetsUpItsLine : Obligations.SetLineSetsUpItsLine := by
  intro s l f x lines hand active
  have sound := lines hand.1 x.line
  have taken := (exec_setLine hand).trans (by rw [State.withPermission_of_true (State.isActive_of_eq active)])
  rw [State.takeSetLine_eq] at taken
  refine ⟨_, taken, ?_⟩
  rw [← x.takenStatus_eq]
  generalize takenStatus x.clamped = status
  have on := State.enable_spec (s := s) (x := x) fun off => (sound.off_iff.mp off).2
  have off := State.disable_spec sound
  generalize (s.storeSettings x).enable x.line = e at on ⊢
  generalize (s.storeSettings x).disable x.line = d at off ⊢
  have hears : ∀ {u ns}, SettingsTaken s u x ns → ∀ k, Hears (s.link k) ((u.answer l f status .none).link k) ns :=
    fun h k => State.answer_hears _ l k f status .none (h.told.hears k)
  by_cases enabled : x.enabled = true
  · obtain ⟨done, slots, live, began⟩ := on e rfl
    rw [if_pos enabled]
    refine done.answered l f status ?_ _ rfl
    rw [if_pos enabled]
    exact ⟨slots, live, hears done, began⟩
  · have off := off d rfl
    rw [if_neg enabled]
    by_cases atOnce : (s.line x.line).seq = .idle ∨ ((s.line x.line).seq = .enrolling ∧ (s.line x.line).exchange = none)
    · rw [if_pos atOnce] at off
      obtain ⟨done, gone, seq, live, rest⟩ := off
      refine done.answered l f status ?_ _ rfl
      rw [if_neg enabled, if_pos atOnce]
      exact ⟨seq, live, rest, gone, hears done⟩
    · rw [if_neg atOnce] at off
      obtain ⟨done, slots, seq, enrol, pending⟩ := off
      refine done.answered l f status ?_ _ rfl
      rw [if_neg enabled, if_neg atOnce]
      exact ⟨slots, seq, enrol, hears done, pending⟩

end Sys2Proof.Machine
end

section
/-! PROOF. ENROL_LINE (O39; R38, R152). -/

namespace Sys2Proof.Machine

section
variable {s : State} {l : Link} {f : Frame} {ln : LineNo}

theorem State.putCondition_conditions (s : State) (ln : LineNo) (c : LineCondition) (b : Bool) :
    ((s.putCondition ln c b).line ln).conditions = (s.line ln).conditions.put c b := by
  rw [State.putCondition_line, if_pos rfl]

theorem leftNotices_eq (cs : LineConditionSet) (ln : LineNo) (c : LineCondition) :
    (if cs.has c = false then [] else [Notice.lineCondition ln c false]) =
      ([c].filter cs.has).map fun c => .lineCondition ln c false := by
  cases present : cs.has c <;> simp [present]

/-- R38, R152: the enrolment conditions go, and the links hear of each that was present. -/
theorem State.clearConditions_spec (s : State) (ln : LineNo) :
    ∀ v, v = s.clearConditions ln →
      v = { s with links := v.links, lines := v.lines } ∧
        Told s v (fun _ => ([LineCondition.enrolFailed, .tableFull, .duplicateId].filter (s.line ln).conditions.has).map
          fun c => .lineCondition ln c false) ∧
        (∀ k, k ≠ ln → v.line k = s.line k) ∧
        v.line ln =
          { s.line ln with
            conditions := { enrolFailed := false, tableFull := false, duplicateId := false
                            wrongAddress := (s.line ln).conditions.wrongAddress } } := by
  rintro v rfl
  have told := ((s.putCondition_told ln .enrolFailed false).trans (State.putCondition_told _ ln .tableFull false)).trans
    (State.putCondition_told _ ln .duplicateId false)
  refine ⟨?_, fun k => (told k).trans (congrArg (List.foldl _ _) ?_), (s.clearConditions_slotEffects ln).others, ?_⟩
  · unfold State.clearConditions
    rw [State.putCondition_frame, State.putCondition_frame _ ln .tableFull, State.putCondition_frame s]
  · simp only [State.putCondition_conditions, LineConditionSet.has_put, reduceCtorEq, if_false, leftNotices_eq,
      ← List.map_append, ← List.filter_append]
    rfl
  · unfold State.clearConditions
    simp only [State.putCondition_line, if_pos]
    rfl

/-- R38, R152: an operation begins, and the links hear of the conditions that went. -/
theorem State.beginEnrolment_spec (s : State) (ln : LineNo) (operation : Operation) (subState : SubState) :
    ∀ v, v = s.beginEnrolment ln operation subState →
      v = { s with links := v.links, lines := v.lines } ∧
        Told s v (fun _ => ([LineCondition.enrolFailed, .tableFull, .duplicateId].filter (s.line ln).conditions.has).map
          fun c => .lineCondition ln c false) ∧
        (∀ k, k ≠ ln → v.line k = s.line k) ∧
        v.line ln =
          { s.line ln with
            joinSuspended := false
            conditions := { enrolFailed := false, tableFull := false, duplicateId := false
                            wrongAddress := (s.line ln).conditions.wrongAddress }
            seq := if (s.line ln).seq = SeqState.idle then .enrolling else (s.line ln).seq
            enrol := EnrolRecord.start operation subState } := by
  rintro v rfl
  rw [State.beginEnrolment_eq]
  obtain ⟨frame, told, others, own⟩ := s.clearConditions_spec ln _ rfl
  generalize s.clearConditions ln = v at frame told others own
  refine ⟨by rw [frame]; rfl, told, fun k hk => ?_, ?_⟩
  · exact (State.setLine_line_ne _ _ hk).trans (others k hk)
  · rw [State.setLine_line_self, own]

theorem exec_enrolLine {full : Bool} (hand : s.InHand l f (.enrolLine ln full)) (active : l = s.pair.activeLink) :
    exec (if full then .enrolLineFull l else .enrolLineJoin l) s = .next (s.takeEnrol l ln
      (if full then .full else .join) (if full then .dropping else .calling) f) := by
  have permitted : ∀ t, s.withPermission l f (s.isActive l) t = t :=
    State.withPermission_of_true (State.isActive_of_eq active)
  cases full with
  | true => exact (exec_enrolLineFull hand).trans (by rw [permitted]; rfl)
  | false => exact (exec_enrolLineJoin hand).trans (by rw [permitted]; rfl)

end

/-- Settles O39: by the two refusals, in their order, and the operation that begins. -/
theorem enrolLineBeginsAnOperation : Obligations.EnrolLineBeginsAnOperation := by
  intro s l f ln full hand active
  refine ⟨_, exec_enrolLine hand active, ?_⟩
  unfold State.takeEnrol
  split
  · exact s.refuse_answeredOnly l f _
  · split
    · exact s.refuse_answeredOnly l f _
    · obtain ⟨frame, told, others, own⟩ := s.beginEnrolment_spec ln (if full then .full else .join)
        (if full then .dropping else .calling) _ rfl
      generalize s.beginEnrolment ln _ _ = v at frame told others own
      have hears := told.hear
      refine ⟨s.answer_answered _ l f _ _ (by rw [hears l]), hears.answer_kept l f _ _,
        congrArg (fun u : State => { u with links := (v.answer l f .ok .none).links }) frame,
        fun k => State.answer_hears _ l k f _ _ (told.hears k), others, own.trans ?_⟩
      cases full <;> rfl

end Sys2Proof.Machine
end

section
/-! PROOF. SCHEDULER_PICK (O44; R41, R47, R51, R138, R143, R144, R145). -/

namespace Sys2Proof.Machine

section
variable {s : State} {ln : LineNo}

/-- R145: whether a pick can be made. -/
theorem canPick_iff : CanPick s ln ↔ s.inReset = false ∧ s.mayPick ln = true := by
  unfold State.mayPick State.rested CanPick
  simp [and_assoc]

theorem exec_schedulerPick (running : s.inReset = false) : exec (.schedulerPick ln) s = .next (s.pick ln) :=
  congrArg Host.Outcome.next (State.whenRunning_of_running running _)

/-- R47, R106: whether the line is a member of its JOIN class. -/
theorem State.joinDue_iff (sound : (s.line ln).Sound) :
    s.joinDue ln = true ↔
      (s.line ln).joinSuspended = false ∧ AtLeastAgo (s.line ln).lastCall (s.line ln).joinPeriod s.now := by
  obtain ⟨-, upper⟩ := sound.join_range
  rw [atLeastAgo_iff (by omega)]
  unfold State.joinDue
  rw [Bool.and_eq_true, Bool.not_eq_true', decide_eq_true_iff]

/-- R143, R144: with no member of a class, no slot is taken. -/
theorem State.pickSlot_of_no_members (sound : (s.line ln).Sound) (values : s.ValuesSound)
    (none : ∀ k m h, (s.slot m).fixture = some h → h.line = ln → ¬InClass s m h k) : s.pickSlot ln = .none := by
  refine List.findSome?_eq_none_iff.mpr fun k _ => Option.map_eq_none_iff.mpr (longestWaiting_none.mpr ?_)
  refine List.eq_nil_iff_forall_not_mem.mpr ?_
  rintro ⟨m, w⟩ mem
  obtain ⟨h, bound, line, member, -⟩ := State.mem_members.mp mem
  exact none k m h bound line ((State.memberOf_iff (line ▸ sound) values k).mp member)

theorem State.pick_of_no_members (sound : (s.line ln).Sound) (values : s.ValuesSound) (can : CanPick s ln)
    (none : ∀ k m h, (s.slot m).fixture = some h → h.line = ln → ¬InClass s m h k) :
    s.pick ln = if s.joinDue ln then s.startJoining ln else s := by
  obtain ⟨-, may⟩ := canPick_iff.mp can
  simp only [State.pick, may, if_true, State.pickSlot_of_no_members sound values none]

theorem State.pick_of_recover {n : SlotNo} {f : Fixture} (sound : (s.line ln).Sound) (values : s.ValuesSound)
    (can : CanPick s ln) (served : IsServed s ln .recover n f) : s.pick ln = s.startPoll ln n f := by
  obtain ⟨-, may⟩ := canPick_iff.mp can
  have taken := State.pickSlot_of_served sound values served
  obtain ⟨bound, -⟩ := served
  simp only [State.pick, may, if_true, taken, bound]

end

/-- Settles O44: a SET exchange, a POLL exchange, the JOIN class or nothing, and no pick. -/
theorem schedulerServesTheMostPressing : Obligations.SchedulerServesTheMostPressing := by
  intro s ln lines values
  refine ⟨fun k n f can set served => ?_, fun n f can served => ?_, fun can none => ?_, fun running cannot => ?_⟩
  · have sound := lines can.1 ln
    have picked := exec_schedulerPick_of_served sound values can served set
    obtain ⟨frame, slots, others, own⟩ := s.startSet_spec (ln := ln) n f _ rfl
    exact ⟨_, _, _, _, picked, frame, slots, others, own⟩
  · have sound := lines can.1 ln
    have picked := exec_schedulerPick can.1 (ln := ln)
    rw [State.pick_of_recover sound values can served, State.startPoll_eq] at picked
    refine ⟨_, picked, rfl, fun m hm => State.setSlot_slot_ne _ _ hm, fun k hk => State.setLine_line_ne _ _ hk, ?_, ?_⟩
    · exact State.setSlot_slot_self ..
    · exact State.setLine_line_self ..
  · have sound := lines can.1 ln
    have picked := exec_schedulerPick can.1 (ln := ln)
    rw [State.pick_of_no_members sound values can none] at picked
    rw [picked, ← State.joinDue_iff sound]
    refine ⟨fun due => ?_, fun notDue => by rw [if_neg notDue]⟩
    rw [if_pos due, State.startJoining_eq]
    rfl
  · rw [exec_schedulerPick running, State.pick, if_neg fun may => cannot (canPick_iff.mpr ⟨running, may⟩)]

end Sys2Proof.Machine
end

section
/-! PROOF. Frames and windows on a line (O46; R39, R41, R43, R138, R139, R141, R160). -/

namespace Sys2Proof.Machine

/-- R159, R160: a frame is its address, its kind, its payload and its CRC-8. -/
theorem LineFrame.bytes_eq (frame : LineFrame) :
    frame.bytes =
      match frame with
      | .set _ a pan tilt levels => lineBytes a 1#8 (fieldBytes ((2, pan) :: (2, tilt) :: levels.map fun x => (2, x)))
      | .poll _ a => lineBytes a 2#8 []
      | .call => lineBytes 63 4#8 []
      | .assign u a => lineBytes 63 5#8 (fieldBytes [(5, u.toNat), (1, a)])
      | .drop a => lineBytes a 7#8 [] := by
  cases frame with
  | set n a pan tilt levels =>
    dsimp only
    rw [fieldBytes_two, fieldBytes_two, fieldBytes_map_two, ← List.append_assoc]
    rfl
  | assign u a =>
    dsimp only
    rw [fieldBytes_five, fieldBytes_one, fieldBytes_nil, List.append_nil]
    rfl
  | poll n a => rfl
  | call => rfl
  | drop a => rfl

section
variable {s : State} {ln : LineNo} {x : Exchange}

/-! ### Driving the line (R160) -/

theorem State.drives_iff (running : s.inReset = false) :
    s.drives ln = true ↔
      (∃ x, (s.line ln).exchange = some x ∧ x.phase = .frame) ∨
        ((s.line ln).exchange = none ∧ s.micros < (s.line ln).restedAt) := by
  unfold State.drives State.rested
  cases (s.line ln).exchange <;> simp [running]

/-! ### The next frame of an ENROLLING line (R38, R39, R41, R43) -/

/-- R138: the frame an enrolment record calls for, the DROP that gives a fixture up before what the sub-state asks. -/
theorem EnrolRecord.nextFrame_of_calls {e : EnrolRecord} {frame : LineFrame}
    (calls : (∃ g, e.giveUp = some g ∧ frame = .drop g.address) ∨
      (e.giveUp = none ∧ ((e.subState = some .dropping ∧ frame = .drop 0) ∨ (e.subState = some .calling ∧ frame = .call) ∨
        (e.subState = some .assigning ∧ ∃ u a, e.captured = some u ∧ e.offered = some a ∧ frame = .assign u a)))) :
    e.nextFrame = some frame := by
  unfold EnrolRecord.nextFrame
  rcases calls with ⟨g, givingUp, rfl⟩ |
    ⟨kept, ⟨dropping, rfl⟩ | ⟨calling, rfl⟩ | ⟨assigning, u, a, captured, offered, rfl⟩⟩
  · simp only [givingUp]
  · simp only [kept, dropping]
  · simp only [kept, calling]
  · simp only [kept, assigning, captured, offered]

/-- R138: the characters of a frame of an enrolment. -/
theorem LineFrame.length_of_unserved {frame : LineFrame} (unserved : frame.slotAddress = none) :
    frame.bytes.length = if frame.replyLength = 16 then 9 else 3 := by
  rw [LineFrame.bytes_length]
  cases frame with
  | set => cases unserved
  | poll => cases unserved
  | drop | call | assign => rfl

/-- R139: a SET and a POLL expect an ACK. -/
theorem LineFrame.replyLength_of_served {frame : LineFrame} {a : Nat} (served : frame.slotAddress = some a) :
    frame.replyLength = 8 := by
  cases frame with
  | set | poll => rfl
  | drop | call | assign => cases served

theorem State.startEnrolFrame_of_busy
    (busy : (s.line ln).seq ≠ .enrolling ∨ (s.line ln).exchange ≠ none ∨ s.micros < (s.line ln).restedAt) :
    s.startEnrolFrame ln = s := by
  unfold State.startEnrolFrame State.rested
  refine if_neg fun ready => ?_
  obtain ⟨enrolling, free, rested⟩ := ready
  rcases busy with other | flight | early
  · exact other enrolling
  · exact flight free
  · exact absurd (of_decide_eq_true rested) (Nat.not_le.mpr early)

/-! ### The end of a frame (R41, R43, R138, R139) -/

theorem State.endLineFrame_of_served (flight : (s.line ln).exchange = some x) {a : Nat}
    (served : x.frame.slotAddress = some a) (phase : x.phase = .frame) (ended : x.ends ≤ s.micros) :
    s.endLineFrame ln = s.setLine ln
      { s.line ln with
        seq := .awaiting
        exchange := some { x with phase := .window
                                  ends := s.micros + (s.line ln).replyWindow + x.rate.charMicros * 8 } } := by
  unfold State.endLineFrame State.openWindow
  rw [flight]
  dsimp only
  rw [if_pos ⟨by rw [served]; rfl, phase, ended⟩, State.setLine_setLine, State.setLine_line_self,
    LineFrame.replyLength_of_served served]
  rfl

theorem State.openArbitration_of_call (flight : (s.line ln).exchange = some x) (frame : x.frame = .call)
    (phase : x.phase = .frame) (ended : x.ends ≤ s.micros) :
    s.openArbitration ln = s.setLine ln
      { s.line ln with
        enrol := { (s.line ln).enrol with subState := some .arbitrating }
        exchange := some { frame := .call, rate := .r250, phase := .arbitration, ends := s.micros + 160 } } := by
  unfold State.openArbitration
  rw [State.exchangeOver_eq_some.mpr ⟨x, flight, frame, phase, ended⟩]
  dsimp only
  rw [State.mapEnrol, State.setLine_setLine, State.setLine_line_self]

theorem State.endAssign_of_assign (flight : (s.line ln).exchange = some x) {u : BitVec 40} {a : Nat}
    (frame : x.frame = .assign u a) (phase : x.phase = .frame) (ended : x.ends ≤ s.micros) :
    s.endAssign ln = s.setLine ln
      { s.line ln with
        exchange := some { x with phase := .window
                                  ends := s.micros + (s.line ln).replyWindow + x.rate.charMicros * 16 } } := by
  unfold State.endAssign State.openWindow
  rw [flight]
  dsimp only
  rw [frame]
  dsimp only
  rw [if_pos ⟨phase, ended⟩]
  rfl

/-- Before its last character no frame has ended. -/
theorem State.exchangeOver_early (flight : (s.line ln).exchange = some x) (early : s.micros < x.ends)
    (phase : ExchangePhase) : s.exchangeOver ln phase = none := by
  unfold State.exchangeOver
  rw [flight]
  exact if_neg fun h => absurd h.2 (Nat.not_le.mpr early)

theorem State.endLineFrame_early (flight : (s.line ln).exchange = some x) (early : s.micros < x.ends) :
    s.endLineFrame ln = s := by
  unfold State.endLineFrame
  rw [flight]
  exact if_neg fun h => absurd h.2.2 (Nat.not_le.mpr early)

theorem State.openArbitration_early (flight : (s.line ln).exchange = some x) (early : s.micros < x.ends) :
    s.openArbitration ln = s := by
  unfold State.openArbitration
  rw [State.exchangeOver_early flight early]

theorem State.endAssign_early (flight : (s.line ln).exchange = some x) (early : s.micros < x.ends) :
    s.endAssign ln = s := by
  unfold State.endAssign
  rw [flight]
  dsimp only
  split
  · exact if_neg fun h => absurd h.2 (Nat.not_le.mpr early)
  · rfl

end

theorem next_of_running {s : State} (running : s.inReset = false) (effect : State → State) :
    (.next (s.whenRunning effect) : Result) = .next (effect s) :=
  congrArg _ (State.whenRunning_of_running running effect)

/-- Settles O46: the bytes by the kind of frame, and the line by the command. -/
theorem lineFramesGoOut : Obligations.LineFramesGoOut := by
  refine ⟨LineFrame.bytes_eq, fun s ln running => ?_⟩
  refine ⟨State.drives_iff running, fun frame enrolling free rested calls => ?_, fun busy => ?_,
    fun x a flight served phase ended => ?_, fun x flight frame phase ended => ?_, fun x u a flight frame phase ended => ?_,
    fun free => ?_, fun flight => ?_, fun x flight early => ⟨?_, ?_, ?_⟩⟩
  · have next := EnrolRecord.nextFrame_of_calls calls
    refine (next_of_running running _).trans (congrArg _ ?_)
    rw [s.startEnrolFrame_of_next ln enrolling free (decide_eq_true rested) next,
      LineFrame.length_of_unserved (EnrolRecord.calls_nextFrame next .r250 0).unserved]
    rfl
  · exact (next_of_running running _).trans (congrArg _ (State.startEnrolFrame_of_busy busy))
  · exact (next_of_running running _).trans (congrArg _ (State.endLineFrame_of_served flight served phase ended))
  · exact (next_of_running running _).trans (congrArg _ (State.openArbitration_of_call flight frame phase ended))
  · exact (next_of_running running _).trans (congrArg _ (State.endAssign_of_assign flight frame phase ended))
  · exact (next_of_running running _).trans (congrArg _ (if_pos free))
  · exact (next_of_running running _).trans (congrArg _ (if_neg (Option.isSome_iff_ne_none.mp flight)))
  · exact (next_of_running running _).trans (congrArg _ (State.endLineFrame_early flight early))
  · exact (next_of_running running _).trans (congrArg _ (State.openArbitration_early flight early))
  · exact (next_of_running running _).trans (congrArg _ (State.endAssign_early flight early))

end Sys2Proof.Machine
end

section
/-! PROOF. DROP_DONE (O49; R39, R40, R50, R142, R152). -/

namespace Sys2Proof.Machine

section
variable {s u t : State} {ln : LineNo} {x : Exchange} {a : Nat}

theorem EffectsKept.links (h : EffectsKept u t ln) : t.links = u.links := by rw [h.frame]

theorem EffectsKept.slots (h : EffectsKept u t ln) : t.slots = u.slots := by rw [h.frame]

theorem EffectsKept.link (h : EffectsKept u t ln) (k : Link) : t.link k = u.link k := by
  unfold State.link; rw [h.links]

/-- The end of the exchange tells the links nothing. -/
theorem EffectsKept.told (h : EffectsKept u t ln) {ns : Link → List Notice} (told : Told s u ns) : Told s t ns :=
  fun k => (h.link k).trans (told k)

/-- R39, R40: the last character of a DROP ends its exchange. -/
theorem State.endDrop_of_over (flight : (s.line ln).exchange = some x) (frame : x.frame = .drop a)
    (phase : x.phase = .frame) (ended : x.ends ≤ s.micros) :
    s.endDrop ln = ((s.line ln).enrol.giveUp.elim (s.dropAll ln) (s.stopOperation ln ·.condition)).endExchange ln := by
  unfold State.endDrop
  rw [State.exchangeOver_eq_some.mpr ⟨x, flight, frame, phase, ended⟩]
  dsimp only
  cases (s.line ln).enrol.giveUp <;> rfl

theorem State.endDrop_early (flight : (s.line ln).exchange = some x) (early : s.micros < x.ends) : s.endDrop ln = s := by
  unfold State.endDrop
  rw [State.exchangeOver_early flight early]

end

/-- Settles O49: the exchange ends after the line has lost its fixtures, or after its operation has stopped. -/
theorem dropsEndTheirExchange : Obligations.DropsEndTheirExchange := by
  intro s ln x a running flight frame phase
  have exec : exec (.dropDone ln) s = .next (s.endDrop ln) := next_of_running running _
  refine ⟨fun live ended kept _ => ?_, fun g live ended given => ?_, fun early => ?_⟩
  · rw [State.endDrop_of_over flight frame phase ended, kept, Option.elim_none] at exec
    have lost := s.dropAll_spec ln
    obtain ⟨closed, effects⟩ := (s.dropAll_before ln).kept.closed live flight
    refine ⟨_, exec, closed, onlineGone_of_slots lost.gone rfl effects.slots, (effects.told lost.told).hear,
      (effects.told lost.told).hears, ?_, ?_, ?_, ?_, ?_⟩
    · rw [effects.effective, lost.own]
    · rw [effects.conditions, lost.own]
    · rw [effects.joinSuspended, lost.own]
    · rw [effects.enrol, lost.own]
    · generalize (s.dropAll ln).endExchange ln = t at effects
      rw [effects.links, effects.slots]
      exact effects.frame.trans (congrArg (fun v : State => { v with lines := t.lines }) lost.frame)
  · rw [State.endDrop_of_over flight frame phase ended, given, Option.elim_some] at exec
    obtain ⟨whole, told, -, own⟩ := s.stopOperation_spec ln g.condition _ rfl
    obtain ⟨closed, effects⟩ := (s.stopOperation_before ln g.condition).kept.closed live flight
    refine ⟨_, exec, closed, (effects.told told).hear, (effects.told told).hears, ?_, ?_, ?_, fun k hk => ?_, ?_, ?_⟩
    · rw [effects.joinSuspended, own]
    · rw [effects.effective, own]
    · rw [effects.conditions, own]
      exact (LineConditionSet.has_put ..).trans (if_pos rfl)
    · rw [effects.conditions, own]
      exact (LineConditionSet.has_put ..).trans (if_neg hk)
    · rw [effects.enrol, own]
    · generalize (s.stopOperation ln g.condition).endExchange ln = t at effects
      rw [effects.links]
      exact effects.frame.trans (congrArg (fun v : State => { v with lines := t.lines }) whole)
  · rw [exec, State.endDrop_early flight early]

end Sys2Proof.Machine
end

section
/-! PROOF. The end of a SET exchange (O47; R49, R50, R126, R139, R140, R151, R152, R160). -/

namespace Sys2Proof.Machine

section
variable {s u : State} {ln : LineNo} {n : SlotNo} {f : Fixture} {x : Exchange} {a pan tilt : Nat} {levels : List Nat}
  {cs : LineConditionSet} {ns : List Notice}

/-! ### A miss (R49, R50) -/

/-- R49, R50: a miss on slot `n` has been counted; the line's conditions are `cs` and the links have heard `ns`. -/
structure MissCounted (s u : State) (ln : LineNo) (n : SlotNo) (f : Fixture) (cs : LineConditionSet)
    (ns : List Notice) : Prop where
  frame : u = { s with links := u.links, slots := u.slots, lines := u.lines }
  told : Told s u (fun _ => ns)
  others : ∀ k, k ≠ ln → u.line k = s.line k
  own : u.line ln = { s.line ln with effective := (u.line ln).effective, conditions := cs }
  slots : ∀ m, m ≠ n → u.slot m = s.slot m
  missed : if f.misses + 1 < 3 then
      u.slot n = { s.slot n with fixture := some { f with misses := f.misses + 1 } } ∧
        (u.line ln).effective = (s.line ln).effective
    else
      u.slot n = { s.slot n with fixture := some { f with misses := f.misses + 1, online := false, pollTime := none } } ∧
        (u.line ln).effective = u.slowest ln

theorem State.recompute_effective (s : State) (ln : LineNo) :
    ((s.recompute ln).line ln).effective = (s.recompute ln).slowest ln := by
  have rate : (s.recompute ln).slowest ln = s.slowest ln :=
    State.slowest_congr ln rfl (by rw [State.recompute, State.setLine_line_self])
  rw [rate, State.recompute, State.setLine_line_self]

theorem State.missSet_counted (line : f.line = ln) :
    MissCounted s (s.missSet ln n f) ln n f (s.line ln).conditions (missNotices ln n f) := by
  obtain ⟨frame, -, own, others, slots⟩ := s.missSet_frame ln n f
  have own : (s.missSet ln n f).line ln =
      { s.line ln with effective := ((s.missSet ln n f).line ln).effective, conditions := (s.line ln).conditions } := own
  by_cases again : f.misses + 1 < 3
  · have counted : s.missSet ln n f =
        s.setSlot n { s.slot n with fixture := some { f with misses := f.misses + 1 } } := if_neg (Nat.not_le.mpr again)
    refine ⟨frame, ?_, others, own, slots, ?_⟩
    · rw [missNotices, if_pos again, counted]
      exact .of_links (State.setSlot_links ..)
    · rw [if_pos again, counted]
      exact ⟨State.setSlot_slot_self .., rfl⟩
  · have lost : s.missSet ln n f = ((s.setSlot n
        { s.slot n with fixture := some { f with misses := f.misses + 1 } }).makeMissing .misses n).recompute ln := if_pos (Nat.not_lt.mp again)
    refine ⟨frame, ?_, others, own, slots, ?_⟩
    · rw [missNotices, if_neg again, lost]
      intro k
      rw [State.recompute, State.setLine_link, State.makeMissing_hears, State.goneNotice, State.setSlot_slot_self, ← line]
      rfl
    · rw [if_neg again]
      refine ⟨?_, by rw [lost]; exact State.recompute_effective _ ln⟩
      rw [lost, State.recompute, State.setLine_slot, State.makeMissing_slot, if_pos rfl, State.setSlot_slot_self]
      rfl

/-- R152: WRONG_ADDRESS enters after a miss. -/
theorem MissCounted.wrongAddress (h : MissCounted s u ln n f (s.line ln).conditions ns) :
    MissCounted s (u.putCondition ln .wrongAddress true) ln n f { (s.line ln).conditions with wrongAddress := true }
      (ns ++ enteredNotices s ln .wrongAddress) := by
  obtain ⟨frame, told, others, own, slots, missed⟩ := h
  have conditions : (u.line ln).conditions = (s.line ln).conditions := by rw [own]
  have entered := u.putCondition_told ln .wrongAddress true
  rw [conditions] at entered
  have line := fun k => u.putCondition_line ln k .wrongAddress true
  have whole := u.putCondition_frame ln .wrongAddress true
  generalize u.putCondition ln .wrongAddress true = v at entered line whole
  have slot : ∀ m, v.slot m = u.slot m := fun m => by rw [whole]; rfl
  have line_own : v.line ln = { u.line ln with conditions := (u.line ln).conditions.put .wrongAddress true } :=
    (line ln).trans (if_pos rfl)
  have effective : (v.line ln).effective = (u.line ln).effective := by rw [line_own]
  have rate : v.slowest ln = u.slowest ln := State.slowest_congr ln (by rw [whole]) (by rw [line_own])
  refine ⟨?_, told.trans entered, fun k hk => ((line k).trans (if_neg hk)).trans (others k hk), ?_,
    fun m hm => (slot m).trans (slots m hm), by rw [slot, effective, rate]; exact missed⟩
  · rw [whole]
    exact congrArg (fun w : State => { w with links := v.links, lines := v.lines }) frame
  · rw [effective, line_own, conditions]
    exact congrArg (fun r : LineRec => { r with conditions := (s.line ln).conditions.put .wrongAddress true }) own

/-- R49, R137: the exchange ends after the miss. -/
theorem MissCounted.closed (h : MissCounted s u ln n f cs ns) (live : (s.line ln).disablePending = false)
    (flight : (s.line ln).exchange = some x) :
    ∀ t, t = u.endExchange ln → ExchangeOver s t ln x ∧ Missed s t ln n f ∧ (t.line ln).conditions = cs ∧
      ∀ k, Hears (s.link k) (t.link k) ns := by
  rintro t rfl
  obtain ⟨frame, told, others, own, slots, missed⟩ := h
  have kept : LineKept s u ln := ⟨by rw [frame], others, by rw [own]⟩
  obtain ⟨closed, effects⟩ := kept.closed live flight
  generalize u.endExchange ln = t at closed effects
  have told := effects.told told
  have slot : ∀ m, t.slot m = u.slot m := fun m => by unfold State.slot; rw [effects.slots]
  have rate : t.slowest ln = u.slowest ln := State.slowest_congr ln effects.slots effects.requested
  refine ⟨closed, ⟨?_, told.hear, fun m hm => (slot m).trans (slots m hm), ?_, ?_, ?_⟩, ?_, told.hears⟩
  · rw [effects.links, effects.slots]
    exact effects.frame.trans (congrArg (fun v : State => { v with lines := t.lines }) frame)
  · rw [effects.enrol, own]
  · rw [effects.joinSuspended, own]
  · rw [slot, effects.effective, rate]; exact missed
  · rw [effects.conditions, own]

/-! ### A good ACK (R49, R126, R151) -/

theorem State.ackSet_slot (s : State) (n : SlotNo) (f : Fixture) (c : ConditionSet) (p q : Nat) :
    (s.ackSet n f c p q).slot n =
      { s.slot n with
        fixture := some
          { f with
            misses := 0
            conditions := c
            refPan := if c.positionLost && !f.conditions.positionLost then p else f.refPan
            refTilt := if c.positionLost && !f.conditions.positionLost then q else f.refTilt
            refTime := if c.positionLost && !f.conditions.positionLost then s.stampNow else f.refTime } } := by
  unfold State.ackSet State.raiseConditions
  rw [State.raiseAll_foldl_frame]
  refine (State.setSlot_slot_self ..).trans ?_
  cases c.positionLost && !f.conditions.positionLost <;> rfl

/-! ### The commands (R139, R140) -/

theorem State.applyOutcome_of_set (bound : (s.slot n).fixture = some f) (line : f.line = ln) (online : f.online = true)
    (outcome : AckOutcome) :
    s.applyOutcome ln (.set n a pan tilt levels) outcome =
      match outcome with
      | .good c p q => s.ackSet n f c p q
      | .wrongAddress => (s.missSet ln n f).putCondition ln .wrongAddress true
      | .bad => s.missSet ln n f := by
  unfold State.applyOutcome State.applySet
  dsimp only
  rw [State.exchangeSlot_eq_some.mpr ⟨bound, line, online⟩]
  cases outcome <;> rfl

theorem exec_replyEnd_of_set (running : s.inReset = false) (flight : (s.line ln).exchange = some x)
    (window : x.phase = .window) (frame : x.frame = .set n a pan tilt levels) (reply : List RxChar) :
    exec (.replyEnd ln reply) s =
      .next (if s.micros ≤ x.ends then
        (s.applyOutcome ln (.set n a pan tilt levels) (judgeAck a reply)).endExchange ln else s) := by
  refine (next_of_running running _).trans (congrArg _ ?_)
  simp only [State.endReply, flight, frame, LineFrame.slotAddress, window, true_and]

theorem exec_replyWindowExpiry_of_set (running : s.inReset = false) (flight : (s.line ln).exchange = some x)
    (window : x.phase = .window) (frame : x.frame = .set n a pan tilt levels) :
    exec (.replyWindowExpiry ln) s =
      .next (if x.ends ≤ s.micros then (s.applyOutcome ln (.set n a pan tilt levels) .bad).endExchange ln else s) := by
  refine (next_of_running running _).trans (congrArg _ ?_)
  simp only [State.expireReply, flight, frame, LineFrame.slotAddress, window, true_and]

end

/-- Settles O47: by how the reply is judged, and whether it or the expiry comes in time. -/
theorem setRepliesAreCounted : Obligations.SetRepliesAreCounted := by
  intro s ln x n f a pan tilt levels running live flight window frame bound line online address
  have replied := exec_replyEnd_of_set running flight window frame
  have expired := exec_replyWindowExpiry_of_set running flight window frame
  have outcome := State.applyOutcome_of_set (a := a) (pan := pan) (tilt := tilt) (levels := levels) bound line online
  have miss := s.missSet_counted (n := n) line
  refine ⟨fun reply c p q intime hp hq ack => ?_, fun reply intime wrong => ?_, fun reply intime other own => ?_,
    fun late => ?_, fun late reply => ?_, fun early => ?_⟩
  · have ended := replied reply
    rw [if_pos intime, judgeAck_good (by omega) hp hq ack, outcome] at ended
    dsimp only at ended
    have slot := s.ackSet_slot n f (ConditionSet.ofByte c) p q
    obtain ⟨whole, told, slots⟩ := s.ackSet_frame n f (ConditionSet.ofByte c) p q
    generalize s.ackSet n f (ConditionSet.ofByte c) p q = u at ended slot whole told slots
    have lineKept : ∀ k, u.line k = s.line k := fun k => by rw [whole]; rfl
    have kept : LineKept s u ln := ⟨by rw [whole], fun k _ => lineKept k, by rw [lineKept]⟩
    obtain ⟨closed, effects⟩ := kept.closed live flight
    have slotKept : ∀ m, (u.endExchange ln).slot m = u.slot m := fun m => by unfold State.slot; rw [effects.slots]
    refine ⟨_, ended, closed, ?_, fun m hm => (slotKept m).trans (slots m hm), (slotKept n).trans slot, ?_, ?_, ?_, ?_,
      fun k => ?_⟩
    · rw [effects.links, effects.slots]
      exact effects.frame.trans (congrArg (fun v : State => { v with lines := (u.endExchange ln).lines }) whole)
    · rw [effects.effective, lineKept]
    · rw [effects.conditions, lineKept]
    · rw [effects.enrol, lineKept]
    · rw [effects.joinSuspended, lineKept]
    · rw [effects.link, told, conditionNotices_eq]
  · have ended := replied reply
    rw [if_pos intime, judgeAck_of_wrongAck wrong, outcome] at ended
    exact ⟨_, ended, miss.wrongAddress.closed live flight _ rfl⟩
  · have ended := replied reply
    rw [if_pos intime, judgeAck_bad own other, outcome] at ended
    exact ⟨_, ended, miss.closed live flight _ rfl⟩
  · rw [if_pos late, outcome] at expired
    exact ⟨_, expired, miss.closed live flight _ rfl⟩
  · rw [replied reply, if_neg (Nat.not_le.mpr late)]
  · rw [expired, if_neg (Nat.not_le.mpr early)]

end Sys2Proof.Machine
end

section
/-! PROOF. The effects of a command that ends an exchange do not depend on whether a disable is pending (R39 to R45, R49 to
R52, R140, R147, R152). -/

namespace Sys2Proof.Machine

section
variable (s : State) (ln : LineNo)

/-! ### Records and notices -/

theorem enabled_line : (Enabled s ln).line ln = { s.line ln with enabled := true, disablePending := false } :=
  State.setLine_line_self ..

theorem enabled_setLine (r : LineRec) :
    Enabled (s.setLine ln r) ln = (Enabled s ln).setLine ln { r with enabled := true, disablePending := false } := by
  unfold Enabled
  rw [State.setLine_setLine, State.setLine_setLine, State.setLine_line_self]

theorem enabled_raiseTo (l : Link) (n : Notice) : (Enabled s ln).raiseTo l n = Enabled (s.raiseTo l n) ln := rfl

theorem enabled_raiseAll (n : Notice) : (Enabled s ln).raiseAll n = Enabled (s.raiseAll n) ln := by
  unfold State.raiseAll State.raiseEach
  induction allLinks generalizing s with
  | nil => rfl
  | cons l rest ih => rw [List.foldl_cons, List.foldl_cons, enabled_raiseTo, ih]

theorem enabled_raiseConditions (n : SlotNo) (stored reported : ConditionSet) :
    (Enabled s ln).raiseConditions n stored reported = Enabled (s.raiseConditions n stored reported) ln := by
  unfold State.raiseConditions
  induction conditionNotices n stored reported generalizing s with
  | nil => rfl
  | cons x rest ih => rw [List.foldl_cons, List.foldl_cons, enabled_raiseAll, ih]

theorem enabled_slowest : (Enabled s ln).slowest ln = s.slowest ln :=
  State.slowest_congr ln rfl (by rw [enabled_line])

theorem enabled_recompute : (Enabled s ln).recompute ln = Enabled (s.recompute ln) ln := by
  unfold State.recompute
  rw [enabled_setLine, enabled_slowest, enabled_line]

theorem enabled_mapEnrol (change : EnrolRecord → EnrolRecord) :
    (Enabled s ln).mapEnrol ln change = Enabled (s.mapEnrol ln change) ln := by
  unfold State.mapEnrol
  rw [enabled_setLine, enabled_line]

theorem enabled_putCondition (c : LineCondition) (b : Bool) :
    (Enabled s ln).putCondition ln c b = Enabled (s.putCondition ln c b) ln := by
  have conditions : ((Enabled s ln).line ln).conditions = (s.line ln).conditions := by rw [enabled_line]
  unfold State.putCondition
  rw [conditions]
  split
  · rfl
  · rw [← enabled_raiseAll, enabled_setLine, enabled_line]

theorem enabled_makeMissing (cause : GoneCause) (n : SlotNo) :
    (Enabled s ln).makeMissing cause n = Enabled (s.makeMissing cause n) ln := by
  have slot : (Enabled s ln).slot n = s.slot n := rfl
  unfold State.makeMissing
  rw [slot]
  cases (s.slot n).fixture with
  | none => rfl
  | some f => rw [← enabled_raiseAll]; rfl

/-! ### The ends of SET and POLL exchanges (R49 to R52, R140) -/

theorem enabled_missSet (n : SlotNo) (f : Fixture) : (Enabled s ln).missSet ln n f = Enabled (s.missSet ln n f) ln := by
  unfold State.missSet
  dsimp only
  split
  · rw [← enabled_recompute, ← enabled_makeMissing]; rfl
  · rfl

theorem enabled_ackSet (n : SlotNo) (f : Fixture) (c : ConditionSet) (p q : Nat) :
    (Enabled s ln).ackSet n f c p q = Enabled (s.ackSet n f c p q) ln := by
  unfold State.ackSet
  rw [← enabled_raiseConditions]
  rfl

theorem enabled_ackPoll (n : SlotNo) (f : Fixture) (c : ConditionSet) (p q : Nat) :
    (Enabled s ln).ackPoll ln n f c p q = Enabled (s.ackPoll ln n f c p q) ln := by
  unfold State.ackPoll
  dsimp only
  rw [← enabled_recompute, ← enabled_raiseConditions, ← enabled_raiseAll]
  rfl

theorem enabled_applySet (n : SlotNo) (outcome : AckOutcome) :
    (Enabled s ln).applySet ln n outcome = Enabled (s.applySet ln n outcome) ln := by
  have found : (Enabled s ln).exchangeSlot ln n true = s.exchangeSlot ln n true := rfl
  unfold State.applySet
  rw [found]
  cases s.exchangeSlot ln n true with
  | none => rfl
  | some f =>
    cases outcome with
    | good c p q => exact enabled_ackSet s ln n f c p q
    | wrongAddress | bad => exact enabled_missSet s ln n f

theorem enabled_applyPoll (n : SlotNo) (outcome : AckOutcome) :
    (Enabled s ln).applyPoll ln n outcome = Enabled (s.applyPoll ln n outcome) ln := by
  have found : (Enabled s ln).exchangeSlot ln n false = s.exchangeSlot ln n false := rfl
  unfold State.applyPoll
  rw [found]
  cases outcome with
  | good c p q =>
    cases s.exchangeSlot ln n false with
    | none => rfl
    | some f => exact enabled_ackPoll s ln n f c p q
  | wrongAddress | bad => rfl

theorem enabled_applyOutcome (frame : LineFrame) (outcome : AckOutcome) :
    (Enabled s ln).applyOutcome ln frame outcome = Enabled (s.applyOutcome ln frame outcome) ln := by
  obtain ⟨applied, whole⟩ : ∃ applied : State → State, (∀ s, applied (Enabled s ln) = Enabled (applied s) ln) ∧
      ∀ s, s.applyOutcome ln frame outcome =
        if outcome = .wrongAddress then (applied s).putCondition ln .wrongAddress true else applied s := by
    cases frame with
    | set n a pan tilt levels => exact ⟨(·.applySet ln n outcome), (enabled_applySet · ln n outcome), fun _ => rfl⟩
    | poll n a => exact ⟨(·.applyPoll ln n outcome), (enabled_applyPoll · ln n outcome), fun _ => rfl⟩
    | drop | call | assign => exact ⟨id, fun _ => rfl, fun _ => rfl⟩
  obtain ⟨alike, whole⟩ := whole
  rw [whole, whole, alike]
  split
  · exact enabled_putCondition ..
  · rfl

/-! ### The ends of enrolment exchanges (R39 to R45) -/

theorem enabled_endOperation (outcome : EnrolOutcome) :
    (Enabled s ln).endOperation ln outcome = Enabled (s.endOperation ln outcome) ln := by
  unfold State.endOperation
  rw [enabled_line]
  dsimp only
  split
  · rw [enabled_setLine]
  · rw [← enabled_raiseAll, enabled_setLine]

theorem enabled_stopOperation (c : LineCondition) :
    (Enabled s ln).stopOperation ln c = Enabled (s.stopOperation ln c) ln := by
  unfold State.stopOperation
  dsimp only
  rw [← enabled_endOperation, enabled_putCondition, enabled_setLine, enabled_line]

theorem enabled_dropAll : (Enabled s ln).dropAll ln = Enabled (s.dropAll ln) ln := by
  have lost : ∀ (ns : List SlotNo) (s : State), ns.foldl (State.makeMissing · .dropped) (Enabled s ln) =
      Enabled (ns.foldl (State.makeMissing · .dropped) s) ln := fun ns => by
    induction ns with
    | nil => exact fun _ => rfl
    | cons n rest ih =>
      intro s
      rw [List.foldl_cons, List.foldl_cons, enabled_makeMissing, ih]
  have online : (Enabled s ln).onlineOf ln = s.onlineOf ln := rfl
  unfold State.dropAll
  rw [online, lost, enabled_recompute, enabled_mapEnrol]

theorem enabled_typeFor (code : BitVec 16) :
    (Enabled s ln).typeFor code = (Enabled (s.typeFor code).1 ln, (s.typeFor code).2) := by
  have entry : (Enabled s ln).entryOf code = s.entryOf code := rfl
  have unused : (Enabled s ln).unusedEntry = s.unusedEntry := rfl
  unfold State.typeFor
  rw [entry, unused]
  cases s.entryOf code with
  | some k => rfl
  | none => cases s.unusedEntry <;> rfl

theorem enabled_bindInto (n : SlotNo) (u : BitVec 40) (a : Nat) (c : Caps) (returned : Bool) :
    (Enabled s ln).bindInto n ln u a c returned = Enabled (s.bindInto n ln u a c returned) ln := by
  unfold State.bindInto
  dsimp only
  rw [enabled_typeFor, ← enabled_raiseConditions, ← enabled_raiseAll]
  rfl

theorem enabled_boundOn (n : SlotNo) (u : BitVec 40) (a : Nat) (c : Caps) (returned : Bool) :
    (Enabled s ln).boundOn ln n u a c returned = Enabled (s.boundOn ln n u a c returned) ln := by
  unfold State.boundOn
  rw [enabled_bindInto, enabled_recompute, enabled_mapEnrol]

end

end Sys2Proof.Machine
end

section
/-! PROOF. The end of an exchange with a disable pending (O53; R39, R46, R50, R142, R147). -/

namespace Sys2Proof.Machine

section
variable {s v : State} {ln : LineNo} {x : Exchange}

/-! ### The disable takes its effects (R147) -/

/-- R46, R147: whatever the command has done before its exchange is over, the line is then OFF. -/
theorem EffectsBefore.nowOff (h : EffectsBefore s v ln) (pending : (s.line ln).disablePending = true)
    (flight : (s.line ln).exchange = some x) : NowOff s (v.endExchange ln) ln := by
  obtain ⟨frame, -, others, own⟩ := h
  have lost := State.endExchange_pending (s := v) (by rw [own]; exact pending) (by rw [own]; exact flight)
  have none := onlineOf_of_onlineGone lost.gone
  generalize v.endExchange ln = t at lost none
  obtain ⟨frame', -, -, others', own'⟩ := lost
  refine ⟨by rw [own']; rfl, by rw [own']; rfl, by rw [own']; rfl, ?_, by rw [own']; rfl, fun n f bound line => ?_,
    fun k hk => (others' k hk).trans (others k hk), ?_⟩
  · rw [own']; exact EnrolRecord.abandoned_operation _
  · rw [← Bool.not_eq_true]
    intro online
    exact List.not_mem_nil (none ▸ State.mem_onlineOf.mpr ⟨f, bound, line, online⟩)
  · have types : t.types = v.types := by rw [frame']
    rw [types]
    exact frame'.trans (congrArg (fun w : State => { w with links := t.links, slots := t.slots, lines := t.lines }) frame)

/-- R147: the disable's effects follow on those of the command. -/
theorem EffectsBefore.disableFollows (h : EffectsBefore s v ln) (sound : (s.line ln).Sound)
    (pending : (s.line ln).disablePending = true) (flight : (s.line ln).exchange = some x) :
    DisableFollows ((Enabled v ln).endExchange ln) (v.endExchange ln) ln := by
  obtain ⟨-, -, -, own⟩ := h
  have flight' : (v.line ln).exchange = some x := by rw [own]; exact flight
  have disabled : (v.line ln).enabled = false := by rw [own]; exact (sound.pending_waits pending).1
  have lost := State.endExchange_pending (s := v) (by rw [own]; exact pending) flight'
  have ended := State.endExchange_not_pending (s := Enabled v ln) (x := x) (by rw [enabled_line])
    (by rw [enabled_line]; exact flight')
  generalize v.endExchange ln = t at lost
  generalize (Enabled v ln).endExchange ln = u at ended
  rw [enabled_line, Enabled, State.setLine_setLine] at ended
  have line : u.line ln = _ := (congrArg (·.line ln) ended).trans (State.setLine_line_self ..)
  have links : u.links = v.links := by rw [ended]; rfl
  have slots : u.slots = v.slots := by rw [ended]; rfl
  have told : Told u t fun _ => abandonedNotices v ln ++ allGone v ln .lineOff := fun k => by
    rw [lost.told k]; unfold State.link; rw [links]
  refine ⟨onlineGone_of_slots lost.gone slots rfl, told.hear, fun k => ?_, fun k hk => ?_, ?_, ?_⟩
  · rw [abandonedNotices_congr (s := u) (t := v) (by rw [line]), allGone_congr ln _ slots]
    exact told.hears k
  · rw [lost.others k hk, ended, State.setLine_line_ne _ _ hk]
  · rw [lost.own, line, LineRec.off, EnrolRecord.abandoned]
    dsimp only
    rw [disabled]
    rfl
  · rw [lost.frame, ended]; rfl

/-! ### The commands that end an exchange -/

/-- What a command makes of the state before the exchange of the line is over: nothing where the exchange is in another
phase, its time has not come or has gone, or the command is not for its frame. -/
def State.before (s : State) (ln : LineNo) (phase : ExchangePhase) (inTime : Exchange → Nat → Bool)
    (effect : LineFrame → State → Option State) : Option State :=
  match (s.line ln).exchange with
  | none => none
  | some x => if x.phase = phase ∧ inTime x s.micros = true then effect x.frame s else none

/-- A command ends an exchange in the phase, at its time, after its effect, which is the same with the line enabled. -/
structure EndsExchange (c : Instr) (ln : LineNo) (phase : ExchangePhase) (inTime : Exchange → Nat → Bool)
    (effect : LineFrame → State → Option State) : Prop where
  ends : ∀ s, s.inReset = false →
    exec c s = .next ((s.before ln phase inTime effect).elim s (·.endExchange ln))
  effects : ∀ {frame s v}, effect frame s = some v → EffectsBefore s v ln
  enabled : ∀ frame s, effect frame (Enabled s ln) = (effect frame s).map (Enabled · ln)

variable {c : Instr} {phase : ExchangePhase} {inTime : Exchange → Nat → Bool} {effect : LineFrame → State → Option State}

theorem State.before_of_flight (flight : (s.line ln).exchange = some x) :
    s.before ln phase inTime effect = if x.phase = phase ∧ inTime x s.micros = true then effect x.frame s else none := by
  unfold State.before; rw [flight]

theorem EndsExchange.before_enabled (h : EndsExchange c ln phase inTime effect) (s : State) :
    (Enabled s ln).before ln phase inTime effect = (s.before ln phase inTime effect).map (Enabled · ln) := by
  have micros : (Enabled s ln).micros = s.micros := rfl
  unfold State.before
  rw [enabled_line, micros]
  dsimp only
  cases (s.line ln).exchange with
  | none => rfl
  | some x =>
    dsimp only
    rw [h.enabled]
    split <;> rfl

theorem EndsExchange.nowOff (h : EndsExchange c ln phase inTime effect) (running : s.inReset = false)
    (pending : (s.line ln).disablePending = true) (flight : (s.line ln).exchange = some x) (there : x.phase = phase)
    (due : inTime x s.micros = true) (does : effect x.frame s = some v) :
    exec c s = .next (v.endExchange ln) ∧ NowOff s (v.endExchange ln) ln := by
  have ends := h.ends s running
  rw [State.before_of_flight flight, if_pos ⟨there, due⟩, does] at ends
  exact ⟨ends, (h.effects does).nowOff pending flight⟩

theorem EndsExchange.follows (h : EndsExchange c ln phase inTime effect) (sound : (s.line ln).Sound)
    (running : s.inReset = false) (pending : (s.line ln).disablePending = true) :
    ∃ u t, exec c (Enabled s ln) = .next u ∧ exec c s = .next t ∧
      ((t = s ∧ u = Enabled s ln) ∨ (NowOff s t ln ∧ DisableFollows u t ln)) := by
  refine ⟨_, _, h.ends (Enabled s ln) running, h.ends s running, ?_⟩
  rw [h.before_enabled]
  cases does : s.before ln phase inTime effect with
  | none => exact .inl ⟨rfl, rfl⟩
  | some v =>
    obtain ⟨x, flight⟩ : ∃ x, (s.line ln).exchange = some x := by
      cases flight : (s.line ln).exchange with
      | none => unfold State.before at does; rw [flight] at does; cases does
      | some x => exact ⟨x, rfl⟩
    rw [State.before_of_flight flight] at does
    split at does
    · have before := h.effects does
      exact .inr ⟨before.nowOff pending flight, before.disableFollows sound pending flight⟩
    · cases does

/-! ### Which command ends which exchange (R139, R140, R43) -/

/-- A command comes while the exchange has not run out, its very last microsecond included. -/
def Exchange.stillOpen (x : Exchange) (now : Nat) : Bool := decide (now ≤ x.ends)

/-- A command comes when the exchange has run out. -/
def Exchange.ranOut (x : Exchange) (now : Nat) : Bool := decide (x.ends ≤ now)

/-- R140: a SET or POLL exchange has an outcome. -/
def outcomeEffect (ln : LineNo) (outcome : Nat → AckOutcome) (frame : LineFrame) (s : State) : Option State :=
  frame.slotAddress.map fun a => s.applyOutcome ln frame (outcome a)

/-- R39, R40: a DROP has gone out. -/
def dropEffect (ln : LineNo) (frame : LineFrame) (s : State) : Option State :=
  match frame with
  | .drop _ => some ((s.line ln).enrol.giveUp.elim (s.dropAll ln) (s.stopOperation ln ·.condition))
  | _ => none

/-- R41, R42: an arbitration window has been sampled. -/
def arbitrationEffect (ln : LineNo) (samples : BitVec 40) (frame : LineFrame) (s : State) : Option State :=
  match frame with
  | .call =>
    some (if samples = BitVec.allOnes 40 then s.endOperation ln .complete else s.mapEnrol ln (s.capturing ln samples))
  | _ => none

/-- R45: the fixture at an address is to be given up. -/
def EnrolRecord.refused (a : Nat) (condition : LineCondition) (e : EnrolRecord) : EnrolRecord :=
  { e with giveUp := some { address := a, condition := condition } }

/-- R43: an ASSIGN has failed once, or a second time. -/
def EnrolRecord.failed (a : Nat) (e : EnrolRecord) : EnrolRecord :=
  if e.attempt = some 1 then { e with attempt := some 2 } else e.refused a .enrolFailed

/-- R44, R45: a bind request has been answered. -/
def State.bindEffect (s : State) (ln : LineNo) (u : BitVec 40) (a : Nat) (c : Caps) : State :=
  match s.bindAnswer ln u with
  | .returning n => s.boundOn ln n u a c true
  | .new n => s.boundOn ln n u a c false
  | .duplicate => s.mapEnrol ln (EnrolRecord.refused a .duplicateId)
  | .tableFull => s.mapEnrol ln (EnrolRecord.refused a .tableFull)

/-- R43, R44, R45: a good CAPS has come. -/
def capsEffect (ln : LineNo) (reply : List RxChar) (frame : LineFrame) (s : State) : Option State :=
  match frame with
  | .assign u a => (judgeCaps a reply).map (s.bindEffect ln u a)
  | _ => none

/-- R43: no good CAPS has come to the offered address. -/
def failureEffect (ln : LineNo) (fails : Nat → Bool) (frame : LineFrame) (s : State) : Option State :=
  match frame with
  | .assign _ a => if fails a = true then some (s.mapEnrol ln (EnrolRecord.failed a)) else none
  | _ => none

theorem outcomeEffect_effects {outcome : Nat → AckOutcome} {frame : LineFrame}
    (h : outcomeEffect ln outcome frame s = some v) : EffectsBefore s v ln := by
  obtain ⟨a, -, rfl⟩ := Option.map_eq_some_iff.mp h
  exact (s.applyOutcome_slotEffects ln frame _).before

theorem outcomeEffect_enabled (outcome : Nat → AckOutcome) (frame : LineFrame) (s : State) :
    outcomeEffect ln outcome frame (Enabled s ln) = (outcomeEffect ln outcome frame s).map (Enabled · ln) := by
  unfold outcomeEffect
  cases frame.slotAddress with
  | none => rfl
  | some a => exact congrArg some (enabled_applyOutcome s ln frame _)

theorem replyEnd_ends (reply : List RxChar) :
    EndsExchange (.replyEnd ln reply) ln .window Exchange.stillOpen (outcomeEffect ln (judgeAck · reply)) where
  ends s running := by
    refine (next_of_running running _).trans (congrArg _ ?_)
    unfold State.endReply State.before outcomeEffect Exchange.stillOpen
    cases (s.line ln).exchange with
    | none => rfl
    | some x =>
      simp only [decide_eq_true_eq]
      by_cases due : x.phase = .window ∧ s.micros ≤ x.ends
      · simp only [if_pos due]; cases x.frame.slotAddress <;> rfl
      · simp only [if_neg due]; cases x.frame.slotAddress <;> rfl
  effects := outcomeEffect_effects
  enabled := outcomeEffect_enabled _

theorem replyWindowExpiry_ends :
    EndsExchange (.replyWindowExpiry ln) ln .window Exchange.ranOut (outcomeEffect ln fun _ => .bad) where
  ends s running := by
    refine (next_of_running running _).trans (congrArg _ ?_)
    unfold State.expireReply State.before outcomeEffect Exchange.ranOut
    cases (s.line ln).exchange with
    | none => rfl
    | some x =>
      simp only [decide_eq_true_eq]
      by_cases due : x.phase = .window ∧ x.ends ≤ s.micros
      · simp only [if_pos due]; cases x.frame.slotAddress <;> rfl
      · simp only [if_neg due]; cases x.frame.slotAddress <;> rfl
  effects := outcomeEffect_effects
  enabled := outcomeEffect_enabled _

theorem dropDone_ends : EndsExchange (.dropDone ln) ln .frame Exchange.ranOut (dropEffect ln) where
  ends s running := by
    refine (next_of_running running _).trans (congrArg _ ?_)
    unfold State.endDrop State.exchangeOver State.before dropEffect Exchange.ranOut
    cases (s.line ln).exchange with
    | none => rfl
    | some x =>
      simp only [decide_eq_true_eq]
      by_cases due : x.phase = .frame ∧ x.ends ≤ s.micros
      · simp only [if_pos due]
        cases x.frame with
        | drop a => cases (s.line ln).enrol.giveUp <;> rfl
        | set | poll | call | assign => rfl
      · simp only [if_neg due]; rfl
  effects {frame s v} does := by
    cases frame with
    | drop a =>
      cases does
      cases (s.line ln).enrol.giveUp with
      | none => exact s.dropAll_before ln
      | some g => exact s.stopOperation_before ln g.condition
    | set | poll | call | assign => cases does
  enabled frame s := by
    cases frame with
    | drop a =>
      unfold dropEffect
      rw [enabled_line, enabled_dropAll]
      dsimp only
      cases (s.line ln).enrol.giveUp with
      | none => rfl
      | some g => exact congrArg some (enabled_stopOperation s ln g.condition)
    | set | poll | call | assign => rfl

theorem arbitrationEnd_ends (samples : BitVec 40) :
    EndsExchange (.arbitrationEnd ln samples) ln .arbitration Exchange.ranOut (arbitrationEffect ln samples) where
  ends s running := by
    refine (next_of_running running _).trans (congrArg _ ?_)
    unfold State.endArbitration State.exchangeOver State.before arbitrationEffect Exchange.ranOut State.capturing
    cases (s.line ln).exchange with
    | none => rfl
    | some x =>
      simp only [decide_eq_true_eq]
      by_cases due : x.phase = .arbitration ∧ x.ends ≤ s.micros
      · simp only [if_pos due]
        cases x.frame with
        | call =>
          by_cases ones : samples = BitVec.allOnes 40
          · simp only [if_pos ones]; rfl
          · simp only [if_neg ones]
            cases s.lowestAddress ln samples <;> rfl
        | set | poll | drop | assign => rfl
      · simp only [if_neg due]; rfl
  effects {frame s v} does := by
    cases frame with
    | call =>
      cases does
      split
      · exact s.endOperation_before ln .complete
      · exact s.mapEnrol_before ln _
    | set | poll | drop | assign => cases does
  enabled frame s := by
    cases frame with
    | call =>
      refine congrArg some ?_
      split
      · exact enabled_endOperation s ln .complete
      · exact enabled_mapEnrol s ln (s.capturing ln samples)
    | set | poll | drop | assign => rfl

theorem State.receiveCaps_eq (u : BitVec 40) (a : Nat) (c : Caps) :
    s.receiveCaps ln u a c = (s.bindEffect ln u a c).endExchange ln := by
  unfold State.receiveCaps State.bindEffect
  cases s.bindAnswer ln u <;> rfl

theorem State.bindEffect_before (u : BitVec 40) (a : Nat) (c : Caps) : EffectsBefore s (s.bindEffect ln u a c) ln := by
  unfold State.bindEffect
  cases s.bindAnswer ln u with
  | returning n => exact s.boundOn_before ln n u a c true
  | new n => exact s.boundOn_before ln n u a c false
  | duplicate | tableFull => exact s.mapEnrol_before ln _

theorem enabled_bindEffect (s : State) (u : BitVec 40) (a : Nat) (c : Caps) :
    (Enabled s ln).bindEffect ln u a c = Enabled (s.bindEffect ln u a c) ln := by
  have answer : (Enabled s ln).bindAnswer ln u = s.bindAnswer ln u := rfl
  unfold State.bindEffect
  rw [answer]
  cases s.bindAnswer ln u with
  | returning n => exact enabled_boundOn s ln n u a c true
  | new n => exact enabled_boundOn s ln n u a c false
  | duplicate | tableFull => exact enabled_mapEnrol s ln _

/-- R43: an effect of the ASSIGN exchange alone waits for the reply window of an ASSIGN. -/
theorem State.before_openAssign (only : ∀ frame, (∀ u a, frame ≠ .assign u a) → effect frame s = none) :
    s.before ln .window inTime effect =
      (s.openAssign ln).bind fun y => if inTime y.1 s.micros = true then effect (.assign y.2.1 y.2.2) s else none := by
  unfold State.before State.openAssign
  cases (s.line ln).exchange with
  | none => rfl
  | some x =>
    dsimp only
    by_cases window : x.phase = .window
    · simp only [window, true_and]
      cases frame : x.frame with
      | assign u a => simp only [if_true]; rfl
      | set | poll | call | drop =>
        rw [only, ite_self]
        · rfl
        · exact fun u a h => nomatch h
    · rw [if_neg fun h => window h.1]
      cases x.frame <;> simp only [if_neg window] <;> rfl

theorem capsReceived_ends (reply : List RxChar) :
    EndsExchange (.capsReceived ln reply) ln .window Exchange.stillOpen (capsEffect ln reply) where
  ends s running := by
    have only : ∀ frame, (∀ u a, frame ≠ .assign u a) → capsEffect ln reply frame s = none := fun frame other => by
      cases frame with
      | assign u a => exact absurd rfl (other u a)
      | set | poll | call | drop => rfl
    rw [State.before_openAssign only]
    cases opened : s.openAssign ln with
    | none =>
      refine (next_of_running running _).trans ?_
      simp only [opened]
      rfl
    | some y =>
      obtain ⟨x, u, a⟩ := y
      rw [exec_capsReceived running opened]
      simp only [capsEffect, Exchange.stillOpen, Option.bind_some, decide_eq_true_eq]
      by_cases due : s.micros ≤ x.ends
      · simp only [if_pos due, State.receiveCaps_eq]
        cases judgeCaps a reply <;> rfl
      · simp only [if_neg due]
        cases judgeCaps a reply <;> rfl
  effects {frame s v} does := by
    cases frame with
    | assign u a =>
      obtain ⟨c, -, rfl⟩ := Option.map_eq_some_iff.mp does
      exact State.bindEffect_before u a c
    | set | poll | call | drop => cases does
  enabled frame s := by
    cases frame with
    | assign u a =>
      dsimp only [capsEffect]
      cases judgeCaps a reply with
      | none => rfl
      | some c => exact congrArg some (enabled_bindEffect s u a c)
    | set | poll | call | drop => rfl

theorem State.capsFailed_eq (a : Nat) :
    s.capsFailed ln a = (s.mapEnrol ln (EnrolRecord.failed a)).endExchange ln := rfl

theorem failureEffect_only (fails : Nat → Bool) (frame : LineFrame) (other : ∀ u a, frame ≠ .assign u a) :
    failureEffect ln fails frame s = none := by
  cases frame with
  | assign u a => exact absurd rfl (other u a)
  | set | poll | call | drop => rfl

theorem failureEffect_effects {fails : Nat → Bool} {frame : LineFrame} (does : failureEffect ln fails frame s = some v) :
    EffectsBefore s v ln := by
  cases frame with
  | assign u a =>
    dsimp only [failureEffect] at does
    split at does
    · cases does; exact s.mapEnrol_before ln _
    · cases does
  | set | poll | call | drop => cases does

theorem failureEffect_enabled (fails : Nat → Bool) (frame : LineFrame) (s : State) :
    failureEffect ln fails frame (Enabled s ln) = (failureEffect ln fails frame s).map (Enabled · ln) := by
  cases frame with
  | assign u a =>
    dsimp only [failureEffect]
    rw [enabled_mapEnrol]
    split <;> rfl
  | set | poll | call | drop => rfl

theorem capsFailure_ends (reply : List RxChar) :
    EndsExchange (.capsFailure ln reply) ln .window Exchange.stillOpen
      (failureEffect ln fun a => (judgeCaps a reply).isNone) where
  ends s running := by
    rw [State.before_openAssign (failureEffect_only _)]
    cases opened : s.openAssign ln with
    | none =>
      refine (next_of_running running _).trans ?_
      simp only [opened]
      rfl
    | some y =>
      obtain ⟨x, u, a⟩ := y
      rw [exec_capsFailure running opened]
      simp only [failureEffect, Exchange.stillOpen, Option.bind_some, decide_eq_true_eq, State.capsFailed_eq]
      by_cases due : s.micros ≤ x.ends
      · simp only [if_pos due]
        cases judgeCaps a reply <;> rfl
      · simp only [if_neg due]
        cases judgeCaps a reply <;> rfl
  effects := failureEffect_effects
  enabled := failureEffect_enabled _

theorem capsWindowExpiry_ends :
    EndsExchange (.capsWindowExpiry ln) ln .window Exchange.ranOut (failureEffect ln fun _ => true) where
  ends s running := by
    rw [State.before_openAssign (failureEffect_only _)]
    cases opened : s.openAssign ln with
    | none =>
      refine (next_of_running running _).trans ?_
      simp only [opened]
      rfl
    | some y =>
      obtain ⟨x, u, a⟩ := y
      rw [exec_capsWindowExpiry running opened]
      simp only [failureEffect, Exchange.ranOut, Option.bind_some, decide_eq_true_eq, State.capsFailed_eq, if_true]
      split <;> rfl
  effects := failureEffect_effects
  enabled := failureEffect_enabled _

/-! ### Ends with no effect of their own on the slots -/

/-- R39: a change of the enrolment record that keeps the operation and its bound count keeps what its abandoning tells. -/
theorem abandonedNotices_mapEnrol {change : EnrolRecord → EnrolRecord}
    (operation : ∀ e, (change e).operation = e.operation) (bound : ∀ e, (change e).bound = e.bound) :
    abandonedNotices (s.mapEnrol ln change) ln = abandonedNotices s ln := by
  unfold abandonedNotices State.mapEnrol
  rw [State.setLine_line_self]
  dsimp only
  rw [operation, bound]

/-- R50, R147: only the disable's own effects follow. -/
theorem State.endExchange_only_disable (slots : v.slots = s.slots) (links : v.links = s.links)
    (notices : abandonedNotices v ln = abandonedNotices s ln) (pending : (v.line ln).disablePending = true)
    (flight : (v.line ln).exchange = some x) :
    OnlineGone s (v.endExchange ln) ln ∧
      ∀ k, Hears (s.link k) ((v.endExchange ln).link k) (abandonedNotices s ln ++ allGone s ln .lineOff) := by
  have lost := State.endExchange_pending pending flight
  refine ⟨onlineGone_of_slots lost.gone slots.symm rfl, fun k => ?_⟩
  have hears := lost.told.hears k
  have link : v.link k = s.link k := by unfold State.link; rw [links]
  rw [notices, allGone_congr ln _ slots, link] at hears
  exact hears

theorem State.endExchange_failed (a : Nat) (pending : (s.line ln).disablePending = true)
    (flight : (s.line ln).exchange = some x) :
    OnlineGone s ((s.mapEnrol ln (EnrolRecord.failed a)).endExchange ln) ln ∧
      ∀ k, Hears (s.link k) (((s.mapEnrol ln (EnrolRecord.failed a)).endExchange ln).link k)
        (abandonedNotices s ln ++ allGone s ln .lineOff) := by
  refine State.endExchange_only_disable rfl rfl (abandonedNotices_mapEnrol (fun e => ?_) fun e => ?_)
    (by rw [State.mapEnrol, State.setLine_line_self]; exact pending)
    (by rw [State.mapEnrol, State.setLine_line_self]; exact flight)
  all_goals unfold EnrolRecord.failed; split <;> rfl

end

/-- Settles O53: each of the seven commands ends its exchange after its effects, which are the same with the line enabled,
and the disable's own effects follow. -/
theorem pendingDisableTakesEffect : Obligations.PendingDisableTakesEffect := by
  refine ⟨fun s ln x lines running pending flight => ⟨fun served window => ⟨fun intime reply => ?_, fun expired => ?_⟩,
    fun a frame phase ended => ?_, fun frame phase ended samples => ?_,
    fun u a frame window => ⟨fun intime reply c good => ?_, fun t' fails => ?_⟩⟩,
    fun s c ln lines running pending command => ?_⟩
  · obtain ⟨a, address⟩ := Option.isSome_iff_exists.mp served
    exact ⟨_, (replyEnd_ends reply).nowOff running pending flight window (decide_eq_true intime)
      (by rw [outcomeEffect, address]; rfl)⟩
  · obtain ⟨a, address⟩ := Option.isSome_iff_exists.mp served
    obtain ⟨ends, off⟩ := replyWindowExpiry_ends.nowOff running pending flight window (decide_eq_true expired)
      (v := s.applyOutcome ln x.frame .bad) (by rw [outcomeEffect, address]; rfl)
    refine ⟨_, ends, off, fun n b frame => ?_⟩
    rw [frame, State.applyOutcome_poll_bad]
    exact State.endExchange_only_disable rfl rfl rfl pending flight
  · exact ⟨_, dropDone_ends.nowOff running pending flight phase (decide_eq_true ended) (by rw [frame]; rfl)⟩
  · exact ⟨_, (arbitrationEnd_ends samples).nowOff running pending flight phase (decide_eq_true ended)
      (by rw [frame]; rfl)⟩
  · have address : a < 256 := by
      obtain ⟨-, high⟩ := ((lines running ln).assigns flight frame).range
      omega
    exact ⟨_, (capsReceived_ends reply).nowOff running pending flight window (decide_eq_true intime)
      (by rw [frame]; dsimp only [capsEffect]; rw [judgeCaps_of_goodCaps address good]; rfl)⟩
  · have address : a < 256 := by
      obtain ⟨-, high⟩ := ((lines running ln).assigns flight frame).range
      omega
    suffices ended : t' = .next ((s.mapEnrol ln (EnrolRecord.failed a)).endExchange ln) ∧
        NowOff s ((s.mapEnrol ln (EnrolRecord.failed a)).endExchange ln) ln by
      obtain ⟨ends, off⟩ := ended
      exact ⟨_, ends, off, State.endExchange_failed a pending flight⟩
    rcases fails with ⟨reply, bad, intime, rfl⟩ | ⟨expired, rfl⟩
    · exact (capsFailure_ends reply).nowOff running pending flight window (decide_eq_true intime)
        (by rw [frame]; simp only [failureEffect, judgeCaps_eq_none address bad]; rfl)
    · exact capsWindowExpiry_ends.nowOff running pending flight window (decide_eq_true expired) (by rw [frame]; rfl)
  · have sound := lines running ln
    rcases command with rfl | ⟨reply, rfl⟩ | rfl | ⟨samples, rfl⟩ | ⟨reply, rfl⟩ | rfl | ⟨reply, rfl⟩
    · exact replyWindowExpiry_ends.follows sound running pending
    · exact (replyEnd_ends reply).follows sound running pending
    · exact dropDone_ends.follows sound running pending
    · exact (arbitrationEnd_ends samples).follows sound running pending
    · exact (capsReceived_ends reply).follows sound running pending
    · exact capsWindowExpiry_ends.follows sound running pending
    · exact (capsFailure_ends reply).follows sound running pending

end Sys2Proof.Machine
end

section
/-! PROOF. Owners (O16; R57, R58), RELEASE (O18; R65 to R67, R72) and the requests that change the roles of the console
pair (O33, O34; R77, R79, R84 to R86). -/

namespace Sys2Proof.Machine

/-! ### The owner of a stack (R57, R58) -/

/-- R57: a LIVE claim before which a LIVE claim of its group does not stand has no claim of a higher tier over it, and
none of its own tier with a later stamp. -/
theorem Claim.tier_le_of_not_before {c d : Claim} (hc : c.role = .live) (hd : d.role = .live)
    (h : d.before c = false) :
    c.link.tier ≤ d.link.tier ∧ (d.link.tier = c.link.tier → d.takenOrder ≤ c.takenOrder) := by
  have not_before : ¬d.before c = true := by simp [h]
  rw [Claim.before_iff] at not_before
  simp only [hc, hd, true_and, reduceCtorEq, and_false, false_or] at not_before
  omega

/-- Settles O16: the stack is in its order, and the owner is its first LIVE claim. -/
theorem ownerIsTheHighestLiveClaim : Obligations.OwnerIsTheHighestLiveClaim := by
  intro s n g
  refine ⟨fun c owner => ?_, fun none d hd on group => ?_⟩
  · obtain ⟨mem, on, group, live⟩ := State.owner_mem owner
    refine ⟨mem, on, group, live, fun d hd hn hg dlive => ?_⟩
    obtain ⟨-, before, after, split, none_before⟩ := List.find?_eq_some_iff_append.mp owner
    have ordered := s.stack_ordered n g
    rw [split, List.pairwise_append, List.pairwise_cons] at ordered
    obtain ⟨-, ⟨behind, -⟩, -⟩ := ordered
    have hmem : d ∈ s.stack n g := State.mem_stack.mpr ⟨hd, hn, hg⟩
    rw [split, List.mem_append, List.mem_cons] at hmem
    rcases hmem with first | rfl | later
    · have := none_before d first
      simp [dlive] at this
    · exact ⟨le_rfl, fun _ => le_rfl⟩
    · exact Claim.tier_le_of_not_before live dlive (behind d later)
  · have not_live := List.find?_eq_none.mp none d (State.mem_stack.mpr ⟨hd, on, group⟩)
    cases role : d.role with
    | live => simp [role] at not_live
    | shadow => rfl

/-! ### RELEASE (R65) -/

/-- A slot whose fixture and flags stay, with its parked values and its crossfade records, stays as it is. -/
theorem Slot.ext_of_kept {x y : Slot}
    (kept : y.fixture = x.fixture ∧ y.flags.urgent = x.flags.urgent ∧ y.flags.lagging = x.flags.lagging ∧
      y.flags.gamut = x.flags.gamut)
    (parked : y.parked = x.parked) (fades : y.fades = x.fades) (changed : y.flags.changed = x.flags.changed) : y = x := by
  obtain ⟨fx, px, dx, cx, ux, lx, gx⟩ := x
  obtain ⟨fy, py, dy, cy, uy, ly, gy⟩ := y
  obtain ⟨rfl, rfl, rfl, rfl⟩ := kept
  cases parked; cases fades; cases changed
  rfl

theorem State.mem_claimsIn {s : State} (p : s.PoolsSound) {l : Link} {g : Group} {slots : List SlotNo} {c : Claim} :
    c ∈ s.claimsIn l g slots ↔
      c ∈ s.claims ∧ (decide (c.link = l) && decide (c.slot ∈ slots) && decide (c.group = g)) = true := by
  simp only [State.claimsIn, List.mem_filterMap, Bool.and_eq_true, decide_eq_true_eq, and_assoc]
  constructor
  · rintro ⟨n, hn, found⟩
    obtain ⟨mem, link, slot, group⟩ := State.claimOf_mem found
    exact ⟨mem, link, slot ▸ hn, group⟩
  · rintro ⟨mem, rfl, hn, rfl⟩
    exact ⟨c.slot, hn, State.claimOf_eq p mem⟩

/-- The claims of a link on a group in a set of slots, each slot named once, stand on different groups. -/
theorem State.claimsIn_apart {s : State} {l : Link} {g : Group} {slots : List SlotNo} (nodup : slots.Nodup) :
    (s.claimsIn l g slots).Pairwise (fun c d => ¬(c.slot = d.slot ∧ c.group = d.group)) := by
  refine List.Pairwise.filterMap _ (fun n m ne c hc d hd same => ne ?_) nodup
  obtain ⟨-, -, hn, -⟩ := State.claimOf_mem hc
  obtain ⟨-, -, hm, -⟩ := State.claimOf_mem hd
  exact hn.symm.trans (same.1.trans hm)

theorem State.claimsIn_isEmpty (s : State) (l : Link) (g : Group) (slots : List SlotNo) :
    (s.claimsIn l g slots).isEmpty = slots.all (fun n => (s.claimOf l n g).isNone) := by
  rw [Bool.eq_iff_iff, List.isEmpty_iff, State.claimsIn, List.filterMap_eq_nil_iff, List.all_eq_true]
  simp only [Option.isNone_iff_eq_none]

/-- R66: a slot from which no claim is removed stays as it is. -/
theorem ClaimsGone.slot_kept {s t : State} {gone : Claim → Bool} {fade : Nat} (h : ClaimsGone s t gone fade)
    (fixtures : FixturesKept s t) {n : SlotNo} (kept : ∀ c ∈ s.claims, c.slot = n → gone c = false) :
    t.slot n = s.slot n := by
  obtain ⟨claims, -, groups, changed⟩ := claimsGone_iff.mp h
  have untouched : ∀ g, s.claims.any (fun c => gone c && decide (c.slot = n) && decide (c.group = g)) = false := fun g => by
    rw [← Bool.not_eq_true, any_gone_iff]
    rintro ⟨c, hc, picked, hn, -⟩
    rw [kept c hc hn] at picked
    exact nomatch picked
  have left : ∀ g, (t.slot n).parked.get g = (s.slot n).parked.get g ∧ (t.slot n).fades.get g = (s.slot n).fades.get g :=
    fun g => by
      have group := groups n g
      rw [untouched g] at group
      exact group
  have owners : ∀ g, t.ownerNumber n g = s.ownerNumber n g := fun g =>
    State.ownerNumber_of_owner (State.owner_of_stack (State.stack_kept claims fun c hc hn _ => by simp [kept c hc hn]))
  have marked := changed n
  simp only [owners, ne_eq, not_true_eq_false, decide_false, allGroups, List.any_cons, List.any_nil, Bool.or_false] at marked
  exact Slot.ext_of_kept (fixtures n) (PerGroup.get_ext fun g => (left g).1) (PerGroup.get_ext fun g => (left g).2) marked

/-- Settles O18: the claims released are those of the link on the group in the set, one of each slot at most. -/
theorem releaseRemovesClaims : Obligations.ReleaseRemovesClaims := by
  intro s l f set g fade slots p hand named
  have exec := exec_release hand
  rw [State.withSlots_of_some named, State.takeRelease, State.claimsIn_isEmpty, takenStatus_fade] at exec
  split <;> rename_i h
  · rw [if_pos h] at exec
    exact refused_of_exec exec rfl
  · rw [if_neg h] at exec
    generalize (if 600000 < fade then Status.clamped else .ok) = status at exec ⊢
    obtain ⟨gone, fixtures, frame, told⟩ := State.releaseClaims_gone p (clampTime fade) .release
      (fun c => State.mem_claimsIn p) (State.claimsIn_apart (SlotSet.slots_nodup named))
    refine ⟨_, exec, ?_⟩
    generalize s.releaseClaims (s.claimsIn l g slots) (clampTime fade) .release = u at gone fixtures frame told
    have kept : LinksHear s u := told.hear
    refine ⟨State.answer_answered _ _ _ _ _ _ (by rw [kept l]), kept.answer_kept l f _ _, fixtures, ?_, gone,
      fun k => State.answer_hears u l k f _ _ (told.hears k), fun n untouched => ?_⟩
    · exact congrArg (fun v : State => { v with links := (u.answer l f status .none).links }) frame
    · refine gone.slot_kept fixtures fun c hc hn => ?_
      rw [Bool.eq_false_iff]
      intro picked
      simp only [Bool.and_eq_true, decide_eq_true_eq] at picked
      obtain ⟨⟨link, slot⟩, group⟩ := picked
      rcases untouched with outside | unclaimed
      · exact outside (hn ▸ slot)
      · exact State.claimOf_none.mp unclaimed c hc ⟨link, hn, group⟩

/-! ### The pair (R77, R79, R84) -/

/-- A taking whose effects tell the links, and which is then answered, is answered as it should be. -/
theorem Told.answered {s u : State} {ns : Link → List Notice} (told : Told s u ns) (l : Link) (f : Frame) (x : Status)
    (d : AnswerData) :
    Answered s (u.answer l f x d) l f x d ∧ LinksKept s (u.answer l f x d) l ∧
      ∀ k, Hears (s.link k) ((u.answer l f x d).link k) (ns k) :=
  ⟨State.answer_answered _ _ _ _ _ _ (by rw [told.hear l]), told.hear.answer_kept l f _ _,
    fun k => State.answer_hears u l k f _ _ (told.hears k)⟩

/-- Settles O33: the swap, with the answer placed after its notices. -/
theorem handoverGiveSwapsTheRoles : Obligations.HandoverGiveSwapsTheRoles := by
  intro s l f fade roles hand active live
  have permitted : s.mayGive l = true := by
    rw [← Bool.not_eq_false, State.mayGive_eq_false]
    exact fun no => no.elim (· active) (· live)
  have exec := exec_handoverGive hand
  rw [State.withPermission_of_true permitted, takenStatus_fade] at exec
  generalize (if 600000 < fade then Status.clamped else .ok) = status at exec ⊢
  obtain ⟨changed, frame, told⟩ := State.swap_changed roles (clampTime fade) .give _ rfl
  refine ⟨_, exec, ?_⟩
  generalize s.swap (clampTime fade) .give = u at changed frame told
  obtain ⟨answered, kept, hears⟩ := told.answered l f status .none
  refine ⟨answered, kept, changed, hears, ?_, congrArg (fun v : State => { v with links := (u.answer l f status .none).links }) frame⟩
  rw [State.answer_pair, changed.1]
  rfl

/-- Settles O34, by whether the flag has the request's setting already. -/
theorem overrideChangesTheStandbyClaims : Obligations.OverrideChangesTheStandbyClaims := by
  intro s l f on fade roles hand standby
  have permitted : s.isStandby l = true := by
    rw [← Bool.not_eq_false, State.isStandby_eq_false]
    exact fun no => no standby
  have exec : exec (if on then .overrideOn l else .overrideOff l) s = .next (s.takeOverride l on fade f) := by
    cases on
    · exact (exec_overrideOff hand).trans (by rw [State.withPermission_of_true permitted])
    · exact (exec_overrideOn hand).trans (by rw [State.withPermission_of_true permitted])
  rw [State.takeOverride, takenStatus_fade] at exec
  generalize (if 600000 < fade then Status.clamped else .ok) = status at exec ⊢
  refine ⟨_, exec, ?_⟩
  split <;> rename_i same
  · exact State.answer_answeredOnly _ _ _ _ _
  · obtain ⟨changed, frame, told⟩ := State.changeRoles_raised roles { s.pair with override := on } (clampTime fade)
      (if on then .overrideOn else .overrideOff) _ rfl
    rw [State.changeOverride]
    generalize State.raisePairChanged _ _ _ = u at changed frame told
    obtain ⟨answered, kept, hears⟩ := told.answered l f status .none
    exact ⟨answered, kept, changed, hears, congrArg (fun v : State => { v with links := (u.answer l f status .none).links }) frame⟩

end Sys2Proof.Machine
end

section
/-! PROOF. The claim pool as its promises see it (R55, R56, R90, R97): one claim rewritten, created or dropped, with its
expiry entry. -/

namespace Sys2Proof.Machine

/-! ### Claims, their steps and their entries -/

/-- The steps of a claim: the running one first (R90). -/
def Claim.steps (c : Claim) : List Step := (c.running.map (·.step)).toList ++ c.queue

theorem Claim.records_eq (c : Claim) : c.records = c.steps.map (·.record) := by
  unfold Claim.records Claim.steps
  cases c.running <;> simp

/-- The expiry entry of a claim that runs a step (R97). -/
def Claim.entry (c : Claim) : Option ExpiryEntry := c.running.map fun r => { claim := c.number, time := r.expiry }

/-- Where a claim stands: no two claims of the pool stand in one place (R56). -/
def Claim.place (c : Claim) : Link × SlotNo × Group := (c.link, c.slot, c.group)

/-- R55, R57, R93: what the pool promises of each of its claims, with the count of the stamps set so far. -/
structure Claim.InPool (stamps : Nat) (c : Claim) : Prop where
  number_fits : c.number < 1024
  queue_fits : c.queue.length ≤ 8
  low_fits : c.lowMark ≤ 7
  order_past : c.takenOrder < stamps
  queue_behind : c.running = none → c.queue = []

/-- The promises of the pools without those on steps (R90) and on steps of no time (R97), which an event breaks on its
way. The expiry list holds the entries of the claims that run a step, each once. -/
structure State.PoolCore (s : State) : Prop where
  claims_fit : s.claims.length ≤ 1024
  numbers_differ : (s.claims.map (·.number)).Nodup
  places_differ : (s.claims.map Claim.place).Nodup
  orders_differ : (s.claims.map (·.takenOrder)).Nodup
  in_pool : ∀ c ∈ s.claims, c.InPool s.stampCount
  entries : s.expiryList.Perm (s.claims.filterMap Claim.entry)

/-- R97: no claim runs a step of no time. -/
def State.Settled (s : State) : Prop := ∀ c ∈ s.claims, ∀ r, c.running = some r → r.step.instant = false

theorem Claim.entry_eq_some {c : Claim} {e : ExpiryEntry} :
    c.entry = some e ↔ c.number = e.claim ∧ ∃ r, c.running = some r ∧ r.expiry = e.time := by
  obtain ⟨k, t⟩ := e
  unfold Claim.entry
  cases c.running with
  | none => simp
  | some r => simp

theorem Claim.entry_isSome (c : Claim) : c.entry.isSome = c.running.isSome := by
  unfold Claim.entry; cases c.running <;> rfl

/-- The claims of entries are the claims that run a step. -/
theorem filterMap_entry_claims (cs : List Claim) :
    (cs.filterMap Claim.entry).map (·.claim) = (cs.filter (·.running.isSome)).map (·.number) := by
  induction cs with
  | nil => rfl
  | cons c rest ih =>
    unfold Claim.entry at ih ⊢
    cases h : c.running <;> simp [h, ih]

theorem State.PoolsSound.core {s : State} (p : s.PoolsSound) : s.PoolCore where
  claims_fit := p.claims_fit
  numbers_differ := p.numbers_differ
  places_differ := by
    refine List.Nodup.map_on (fun c hc d hd same => ?_) (List.Nodup.of_map _ p.numbers_differ)
    simp only [Claim.place, Prod.mk.injEq] at same
    exact p.one_per_link c hc d hd same.1 same.2.1 same.2.2
  orders_differ := p.orders_differ
  in_pool c hc := ⟨p.numbers_fit c hc, (p.queues_fit c hc).1, (p.queues_fit c hc).2, p.orders_past c hc,
    p.queue_behind_running c hc⟩
  entries := by
    refine (List.perm_ext_iff_of_nodup (List.Nodup.of_map _ p.entries_differ) ?_).mpr fun e => ?_
    · refine List.Nodup.of_map (·.claim) ?_
      rw [filterMap_entry_claims]
      exact p.numbers_differ.sublist (List.filter_sublist.map _)
    · simp only [List.mem_filterMap, Claim.entry_eq_some]
      refine ⟨p.entry_runs e, ?_⟩
      rintro ⟨c, hc, number, r, run, time⟩
      obtain ⟨d, hd, claim⟩ := p.running_has_entry c hc (by rw [run]; rfl)
      obtain ⟨c', hc', number', r', run', time'⟩ := p.entry_runs d hd
      rw [List.inj_on_of_nodup_map p.numbers_differ hc' hc (number'.trans claim), run] at run'
      cases run'
      obtain ⟨k, u⟩ := e
      obtain ⟨k', u'⟩ := d
      dsimp only at *
      subst number time time' claim
      exact hd

theorem State.PoolCore.sound {s : State} (h : s.PoolCore) (steps : s.stepRecords.length ≤ 4096) (settled : s.Settled) :
    s.PoolsSound where
  claims_fit := h.claims_fit
  numbers_differ := h.numbers_differ
  numbers_fit c hc := (h.in_pool c hc).number_fits
  one_per_link c hc d hd link slot group :=
    List.inj_on_of_nodup_map h.places_differ hc hd (by simp only [Claim.place, link, slot, group])
  queues_fit c hc := ⟨(h.in_pool c hc).queue_fits, (h.in_pool c hc).low_fits⟩
  orders_differ := h.orders_differ
  orders_past c hc := (h.in_pool c hc).order_past
  queue_behind_running c hc := (h.in_pool c hc).queue_behind
  steps_fit := steps
  entries_differ := by
    rw [(h.entries.map (·.claim)).nodup_iff, filterMap_entry_claims]
    exact h.numbers_differ.sublist (List.filter_sublist.map _)
  entry_runs e he := by
    obtain ⟨c, hc, entry⟩ := List.mem_filterMap.mp (h.entries.mem_iff.mp he)
    exact ⟨c, hc, Claim.entry_eq_some.mp entry⟩
  running_has_entry c hc run := by
    obtain ⟨e, entry⟩ := Option.isSome_iff_exists.mp (c.entry_isSome.trans run)
    exact ⟨e, h.entries.mem_iff.mpr (List.mem_filterMap.mpr ⟨c, hc, entry⟩), (Claim.entry_eq_some.mp entry).1.symm⟩
  settled := settled

section
variable {s t : State} {c d : Claim}

/-- In the pool the claim of a link, a slot and a group is found wherever it stands (R56). -/
theorem State.PoolCore.claimOf_eq (h : s.PoolCore) (mem : c ∈ s.claims) : s.claimOf c.link c.slot c.group = some c := by
  cases found : s.claimOf c.link c.slot c.group with
  | none => exact absurd ⟨rfl, rfl, rfl⟩ (State.claimOf_none.mp found c mem)
  | some d =>
    obtain ⟨hd, link, slot, group⟩ := State.claimOf_mem found
    rw [List.inj_on_of_nodup_map h.places_differ hd mem (by simp only [Claim.place, link, slot, group])]

theorem State.PoolCore.claimOf_iff (h : s.PoolCore) {l : Link} {n : SlotNo} {g : Group} :
    s.claimOf l n g = some c ↔ c ∈ s.claims ∧ c.place = (l, n, g) := by
  constructor
  · intro found
    obtain ⟨mem, rfl, rfl, rfl⟩ := State.claimOf_mem found
    exact ⟨mem, rfl⟩
  · rintro ⟨mem, place⟩
    cases place
    exact h.claimOf_eq mem

theorem State.PoolCore.number_inj (h : s.PoolCore) (hc : c ∈ s.claims) (hd : d ∈ s.claims) (e : c.number = d.number) :
    c = d := List.inj_on_of_nodup_map h.numbers_differ hc hd e

/-- In the pool a claim number names one claim (R56). -/
theorem State.PoolCore.claim_iff (h : s.PoolCore) {k : Nat} : s.claim k = some c ↔ c ∈ s.claims ∧ c.number = k := by
  constructor
  · intro found
    exact ⟨List.mem_of_find?_eq_some found, by simpa using List.find?_some found⟩
  · rintro ⟨mem, rfl⟩
    cases found : s.claim c.number with
    | none => simpa using List.find?_eq_none.mp found c mem
    | some d => rw [h.number_inj (List.mem_of_find?_eq_some found) mem (by simpa using List.find?_some found)]

/-- The promises on the pool depend on the claims, the entries and the count of stamps alone. -/
theorem State.PoolCore.congr (h : s.PoolCore) (claims : t.claims = s.claims) (entries : t.expiryList = s.expiryList)
    (stamps : t.stampCount = s.stampCount) : t.PoolCore where
  claims_fit := claims ▸ h.claims_fit
  numbers_differ := claims ▸ h.numbers_differ
  places_differ := claims ▸ h.places_differ
  orders_differ := claims ▸ h.orders_differ
  in_pool := by rw [claims, stamps]; exact h.in_pool
  entries := by rw [claims, entries]; exact h.entries

end

/-! ### A claim rewritten -/

/-- The claims with the claim that has the number of `d` rewritten to `d`. -/
def rewritten (d : Claim) (cs : List Claim) : List Claim := cs.map fun c => if c.number = d.number then d else c

/-- The claims but the one with a number. -/
def otherClaims (k : Nat) (cs : List Claim) : List Claim := cs.filter (fun c => decide (c.number ≠ k))

/-- The expiry list when the claim numbered `k` runs `run`: its entry of before is gone, and that of its running step has
gone in (R97). -/
def reentered (k : Nat) (run : Option RunningStep) (l : List ExpiryEntry) : List ExpiryEntry :=
  match run with
  | none => l.filter (fun e => decide (e.claim ≠ k))
  | some r => insertEntry { claim := k, time := r.expiry } (l.filter (fun e => decide (e.claim ≠ k)))

theorem insertEntry_perm (e : ExpiryEntry) (l : List ExpiryEntry) : (insertEntry e l).Perm (e :: l) := by
  rw [insertEntry_split]
  exact List.perm_middle.trans (.cons e (List.Perm.of_eq List.takeWhile_append_dropWhile))

section
variable {cs : List Claim} {c d : Claim}

theorem otherClaims_perm (numbers : (cs.map (·.number)).Nodup) (mem : c ∈ cs) :
    cs.Perm (c :: otherClaims c.number cs) := by
  refine (List.perm_ext_iff_of_nodup (List.Nodup.of_map _ numbers) ?_).mpr fun x => ?_
  · exact List.nodup_cons.mpr ⟨by simp [otherClaims], (List.Nodup.of_map _ numbers).filter _⟩
  · simp only [otherClaims, List.mem_cons, List.mem_filter, decide_eq_true_eq]
    constructor
    · intro hx
      by_cases e : x.number = c.number
      · exact .inl (List.inj_on_of_nodup_map numbers hx mem e)
      · exact .inr ⟨hx, e⟩
    · rintro (rfl | ⟨hx, -⟩)
      · exact mem
      · exact hx

theorem rewritten_other {cs : List Claim} (none : ∀ c ∈ cs, c.number ≠ d.number) : rewritten d cs = cs :=
  (List.map_congr_left fun c hc => if_neg (none c hc)).trans (List.map_id _)

theorem rewritten_perm (numbers : (cs.map (·.number)).Nodup) (mem : c ∈ cs) (same : d.number = c.number) :
    (rewritten d cs).Perm (d :: otherClaims c.number cs) := by
  have permuted := (otherClaims_perm numbers mem).map fun c => if c.number = d.number then d else c
  rw [List.map_cons, if_pos same.symm] at permuted
  refine permuted.trans (.cons d (List.Perm.of_eq (rewritten_other fun x hx => ?_)))
  rw [same]
  exact of_decide_eq_true (List.mem_filter.mp hx).2

theorem mem_rewritten (numbers : (cs.map (·.number)).Nodup) (mem : c ∈ cs) (same : d.number = c.number) {x : Claim} :
    x ∈ rewritten d cs ↔ x = d ∨ x ∈ cs ∧ x.number ≠ c.number := by
  rw [(rewritten_perm numbers mem same).mem_iff, List.mem_cons, otherClaims, List.mem_filter, decide_eq_true_eq]

/-- A change of the claim numbered `k` rewrites it. -/
theorem State.mapClaim_rewritten {s : State} (numbers : (s.claims.map (·.number)).Nodup) (mem : c ∈ s.claims)
    {change : Claim → Claim} (same : (change c).number = c.number) :
    (s.mapClaim c.number change).claims = rewritten (change c) s.claims := by
  refine List.map_congr_left fun x hx => ?_
  rw [same]
  by_cases e : x.number = c.number
  · rw [if_pos e, if_pos e, List.inj_on_of_nodup_map numbers hx mem e]
  · rw [if_neg e, if_neg e]

theorem rewritten_rewritten {d' : Claim} (same : d'.number = d.number) (cs : List Claim) :
    rewritten d' (rewritten d cs) = rewritten d' cs := by
  unfold rewritten
  rw [List.map_map]
  refine List.map_congr_left fun c _ => ?_
  simp only [Function.comp_apply, same]
  by_cases e : c.number = d.number <;> simp [e]

theorem rewritten_numbers (d : Claim) (cs : List Claim) : (rewritten d cs).map (·.number) = cs.map (·.number) := by
  unfold rewritten
  rw [List.map_map]
  refine List.map_congr_left fun c _ => ?_
  simp only [Function.comp_apply]
  split
  · exact Eq.symm ‹_›
  · rfl

end

theorem reentered_perm (k : Nat) (run : Option RunningStep) (l : List ExpiryEntry) :
    (reentered k run l).Perm ((run.map fun r => ({ claim := k, time := r.expiry } : ExpiryEntry)).toList ++
      l.filter (fun e => decide (e.claim ≠ k))) := by
  cases run with
  | none => exact .refl _
  | some r => exact insertEntry_perm _ _

/-! ### What the rewriting of a claim keeps -/

section
variable {s t : State} {c d : Claim}

/-- The entries but those of one claim are the entries of the other claims. -/
theorem State.PoolCore.entries_others (h : s.PoolCore) (mem : c ∈ s.claims) :
    (s.expiryList.filter (fun e => decide (e.claim ≠ c.number))).Perm
      ((otherClaims c.number s.claims).filterMap Claim.entry) := by
  refine (h.entries.filter _).trans ?_
  have permuted := ((otherClaims_perm h.numbers_differ mem).filterMap Claim.entry).filter
    (fun e => decide (e.claim ≠ c.number))
  refine permuted.trans (List.Perm.of_eq ?_)
  have others : ((otherClaims c.number s.claims).filterMap Claim.entry).filter (fun e => decide (e.claim ≠ c.number)) =
      (otherClaims c.number s.claims).filterMap Claim.entry := by
    refine List.filter_eq_self.mpr fun e he => ?_
    obtain ⟨x, hx, entry⟩ := List.mem_filterMap.mp he
    rw [← (Claim.entry_eq_some.mp entry).1]
    exact (List.mem_filter.mp hx).2
  rw [List.filterMap_cons]
  cases entry : c.entry with
  | none => exact others
  | some e =>
    obtain ⟨number, -⟩ := Claim.entry_eq_some.mp entry
    rw [List.filter_cons_of_neg (by simp [number])]
    exact others

/-- R55, R56, R97: a claim rewritten in its place, with its entry, keeps the pool as it is promised. -/
theorem State.PoolCore.rewrite (h : s.PoolCore) (mem : c ∈ s.claims) (number : d.number = c.number)
    (place : d.place = c.place) (claims : t.claims = rewritten d s.claims)
    (entries : t.expiryList = reentered d.number d.running s.expiryList ∨
      t.expiryList = s.expiryList ∧ d.running = c.running)
    (stamps : s.stampCount ≤ t.stampCount) (order : d.takenOrder = c.takenOrder ∨ s.stampCount ≤ d.takenOrder)
    (pool : d.InPool t.stampCount) : t.PoolCore := by
  have before := otherClaims_perm h.numbers_differ mem
  have after := rewritten_perm (d := d) h.numbers_differ mem number
  rw [← claims] at after
  have in_pool : ∀ x ∈ t.claims, x.InPool t.stampCount := fun x hx => by
    rcases List.mem_cons.mp (after.mem_iff.mp hx) with rfl | hx
    · exact pool
    · obtain ⟨number_fits, queue_fits, low_fits, order_past, queue_behind⟩ := h.in_pool x (List.mem_filter.mp hx).1
      exact ⟨number_fits, queue_fits, low_fits, order_past.trans_le stamps, queue_behind⟩
  have differ : ∀ {α : Type} (f : Claim → α), (s.claims.map f).Nodup → f d = f c → (t.claims.map f).Nodup := by
    intro α f nodup same
    rw [(after.map f).nodup_iff, List.map_cons, same, ← List.map_cons, ← (before.map f).nodup_iff]
    exact nodup
  refine ⟨?_, differ _ h.numbers_differ number, differ _ h.places_differ place, ?_, in_pool, ?_⟩
  · rw [after.length_eq, List.length_cons, ← List.length_cons (a := c), ← before.length_eq]
    exact h.claims_fit
  · rcases order with same | later
    · exact differ _ h.orders_differ same
    · rw [(after.map _).nodup_iff, List.map_cons, List.nodup_cons]
      have nodup := h.orders_differ
      rw [(before.map _).nodup_iff, List.map_cons, List.nodup_cons] at nodup
      refine ⟨fun held => ?_, nodup.2⟩
      obtain ⟨x, hx, same⟩ := List.mem_map.mp held
      have := (h.in_pool x (List.mem_filter.mp hx).1).order_past
      omega
  · refine List.Perm.trans ?_ (after.filterMap Claim.entry).symm
    have run : t.expiryList.Perm (d.entry.toList ++ s.expiryList.filter (fun e => decide (e.claim ≠ c.number))) := by
      rcases entries with entries | ⟨entries, running⟩
      · rw [entries, ← number]; exact reentered_perm _ _ _
      · have same : d.entry = c.entry := by unfold Claim.entry; rw [running, number]
        rw [entries, same]
        refine h.entries.trans ((before.filterMap Claim.entry).trans ?_)
        rw [List.filterMap_cons]
        cases c.entry with
        | none => exact (h.entries_others mem).symm
        | some e => exact .cons e (h.entries_others mem).symm
    refine run.trans ?_
    rw [List.filterMap_cons]
    cases d.entry with
    | none => exact h.entries_others mem
    | some e => exact .cons e (h.entries_others mem)

/-- R90: the records in use when a claim has been rewritten: those of the other claims are in use still. -/
theorem State.PoolCore.rewrite_records (h : s.PoolCore) (mem : c ∈ s.claims) (number : d.number = c.number)
    (claims : t.claims = rewritten d s.claims) :
    s.stepRecords.Perm (c.records ++ (otherClaims c.number s.claims).flatMap Claim.records) ∧
      t.stepRecords.Perm (d.records ++ (otherClaims c.number s.claims).flatMap Claim.records) := by
  have before := (otherClaims_perm h.numbers_differ mem).flatMap_right Claim.records
  have after := (rewritten_perm (d := d) h.numbers_differ mem number).flatMap_right Claim.records
  rw [List.flatMap_cons] at before after
  exact ⟨before, by unfold State.stepRecords; rw [claims]; exact after⟩

/-- R90: a claim rewritten to one with no other records brings no record into use. -/
theorem State.PoolCore.rewrite_subperm (h : s.PoolCore) (mem : c ∈ s.claims) (number : d.number = c.number)
    (claims : t.claims = rewritten d s.claims) (records : d.records.Subperm c.records) :
    t.stepRecords.Subperm s.stepRecords := by
  obtain ⟨before, after⟩ := h.rewrite_records (d := d) mem number claims
  exact after.subperm.trans (((List.subperm_append_right _).mpr records).trans before.symm.subperm)

/-! ### The times of the expiry list (R97) -/

/-- R90: the times of a step are in range. -/
def Step.TimesFit (x : Step) : Prop := x.duration ≤ 600000 ∧ x.dwell ≤ 600000

/-- R97: every time of a step is in range, every expiry is near and the list in its order, and a step of no time is not
to expire later than now. -/
structure State.Timed (s : State) : Prop where
  times : ∀ c ∈ s.claims, ∀ x ∈ c.steps, x.TimesFit
  near : s.ExpiriesNear
  order : s.ExpiriesInOrder
  instant_due : ∀ c ∈ s.claims, ∀ r, c.running = some r → r.step.instant = true → timeLeft s.now r.expiry ≤ 0

theorem State.Timed.congr (h : s.Timed) (claims : t.claims = s.claims) (entries : t.expiryList = s.expiryList)
    (now : t.now = s.now) : t.Timed where
  times := claims ▸ h.times
  near := by unfold State.ExpiriesNear; rw [entries, now]; exact h.near
  order := by unfold State.ExpiriesInOrder; rw [entries, now]; exact h.order
  instant_due := by rw [claims, now]; exact h.instant_due

/-- R97: an entry that goes in where it belongs leaves the list in its order. -/
theorem insertEntry_ordered {now : Reading} {e : ExpiryEntry} {l : List ExpiryEntry}
    (hl : ∀ d ∈ l, ExpiryNear now d.time) (he : ExpiryNear now e.time)
    (ho : l.Pairwise fun d e => timeLeft now d.time ≤ timeLeft now e.time) :
    (insertEntry e l).Pairwise fun d e => timeLeft now d.time ≤ timeLeft now e.time := by
  rw [insertEntry_placed hl he ho, List.pairwise_append, List.pairwise_cons]
  refine ⟨ho.filter _, ⟨fun d hd => ?_, ho.filter _⟩, fun a ha b hb => ?_⟩
  · exact (of_decide_eq_true (List.mem_filter.mp hd).2).le
  · have first : timeLeft now a.time ≤ timeLeft now e.time := of_decide_eq_true (List.mem_filter.mp ha).2
    rcases List.mem_cons.mp hb with rfl | hb
    · exact first
    · exact first.trans (of_decide_eq_true (List.mem_filter.mp hb).2).le

/-- R97: a claim rewritten with steps whose times are in range, running a step that expires within reach. -/
theorem State.Timed.rewrite (h : s.Timed) (core : s.PoolCore) (mem : c ∈ s.claims) (number : d.number = c.number)
    (claims : t.claims = rewritten d s.claims)
    (entries : t.expiryList = reentered d.number d.running s.expiryList ∨ t.expiryList = s.expiryList)
    (now : t.now = s.now) (times : ∀ x ∈ d.steps, x.TimesFit)
    (run : d.running = c.running ∨ ∀ r, d.running = some r → ExpiryNear s.now r.expiry ∧
      (r.step.instant = true → timeLeft s.now r.expiry ≤ 0)) : t.Timed := by
  have members : ∀ {x}, x ∈ t.claims → x = d ∨ x ∈ s.claims := fun hx => by
    rw [claims, mem_rewritten core.numbers_differ mem number] at hx
    exact hx.imp_right And.left
  have reach : ∀ r, d.running = some r → ExpiryNear s.now r.expiry ∧
      (r.step.instant = true → timeLeft s.now r.expiry ≤ 0) := by
    rcases run with same | run
    · intro r hr
      rw [same] at hr
      have entry : c.entry = some ⟨c.number, r.expiry⟩ := Claim.entry_eq_some.mpr ⟨rfl, r, hr, rfl⟩
      exact ⟨h.near _ (core.entries.mem_iff.mpr (List.mem_filterMap.mpr ⟨c, mem, entry⟩)), h.instant_due c mem r hr⟩
    · exact run
  have near : ∀ e ∈ s.expiryList.filter (fun e => decide (e.claim ≠ d.number)), ExpiryNear s.now e.time := fun e he =>
    h.near e (List.mem_filter.mp he).1
  refine ⟨fun x hx => ?_, ?_, ?_, fun x hx => ?_⟩
  · rcases members hx with rfl | hx
    · exact times
    · exact h.times x hx
  · unfold State.ExpiriesNear
    rw [now]
    rcases entries with entries | entries
    · rw [entries]
      unfold reentered
      split
      · exact near
      · intro e he
        rcases mem_insertEntry.mp he with rfl | he
        · exact (reach _ ‹_›).1
        · exact near e he
    · rw [entries]; exact h.near
  · unfold State.ExpiriesInOrder
    rw [now]
    rcases entries with entries | entries
    · rw [entries]
      unfold reentered
      split
      · exact h.order.filter _
      · exact insertEntry_ordered near (reach _ ‹_›).1 (h.order.filter _)
    · rw [entries]; exact h.order
  · rw [now]
    rcases members hx with rfl | hx
    · exact fun r hr => (reach r hr).2
    · exact h.instant_due x hx

/-! ### Claims created, removed, and given their roles -/

/-- R55, R56: a claim at rest, with a number, a place and a stamp of its own, joins the pool. -/
theorem State.PoolCore.create (h : s.PoolCore) (claims : t.claims.Perm (c :: s.claims))
    (entries : t.expiryList = s.expiryList) (room : s.claims.length < 1024)
    (number : c.number ∉ s.claims.map (·.number)) (place : c.place ∉ s.claims.map Claim.place)
    (order : c.takenOrder = s.stampCount) (stamps : t.stampCount = s.stampCount + 1) (rests : c.running = none)
    (pool : c.InPool t.stampCount) : t.PoolCore where
  claims_fit := by rw [claims.length_eq, List.length_cons]; omega
  numbers_differ := by
    rw [(claims.map _).nodup_iff, List.map_cons]; exact List.nodup_cons.mpr ⟨number, h.numbers_differ⟩
  places_differ := by
    rw [(claims.map _).nodup_iff, List.map_cons]; exact List.nodup_cons.mpr ⟨place, h.places_differ⟩
  orders_differ := by
    rw [(claims.map _).nodup_iff, List.map_cons]
    refine List.nodup_cons.mpr ⟨fun held => ?_, h.orders_differ⟩
    obtain ⟨x, hx, same⟩ := List.mem_map.mp held
    have := (h.in_pool x hx).order_past
    omega
  in_pool x hx := by
    rcases List.mem_cons.mp (claims.mem_iff.mp hx) with rfl | hx
    · exact pool
    · obtain ⟨number_fits, queue_fits, low_fits, order_past, queue_behind⟩ := h.in_pool x hx
      exact ⟨number_fits, queue_fits, low_fits, by omega, queue_behind⟩
  entries := by
    rw [entries]
    refine h.entries.trans (List.Perm.trans ?_ (claims.filterMap Claim.entry).symm)
    have none : c.entry = none := by unfold Claim.entry; rw [rests]; rfl
    rw [List.filterMap_cons, none]

/-- R66, R90: some claims leave the pool with their entries. -/
theorem State.PoolsSound.filter (p : s.PoolsSound) {keep : Claim → Bool} (claims : t.claims = s.claims.filter keep)
    (entries : t.expiryList = s.expiryList.filter (fun e => decide ((t.claim e.claim).isSome)))
    (stamps : t.stampCount = s.stampCount) : t.PoolsSound := by
  have sub : t.claims.Sublist s.claims := claims ▸ List.filter_sublist
  refine State.PoolCore.sound ⟨sub.length_le.trans p.claims_fit, p.numbers_differ.sublist (sub.map _),
    p.core.places_differ.sublist (sub.map _), p.orders_differ.sublist (sub.map _),
    fun c hc => stamps ▸ p.core.in_pool c (sub.subset hc), ?_⟩ ?_ fun c hc => p.settled c (sub.subset hc)
  · refine (List.perm_ext_iff_of_nodup ?_ ?_).mpr fun e => ?_
    · rw [entries]; exact (List.Nodup.of_map _ p.entries_differ).filter _
    · refine List.Nodup.of_map (·.claim) ?_
      rw [filterMap_entry_claims]
      exact p.numbers_differ.sublist ((List.filter_sublist.trans sub).map _)
    · rw [entries, List.mem_filter, p.core.entries.mem_iff, decide_eq_true_eq, State.claim_isSome]
      simp only [List.mem_filterMap]
      constructor
      · rintro ⟨⟨c, hc, entry⟩, d, hd, number⟩
        have same := p.core.number_inj (sub.subset hd) hc (number.trans (Claim.entry_eq_some.mp entry).1.symm)
        exact ⟨d, hd, same ▸ entry⟩
      · rintro ⟨c, hc, entry⟩
        exact ⟨⟨c, sub.subset hc, entry⟩, c, hc, (Claim.entry_eq_some.mp entry).1⟩
  · exact (sub.flatMap Claim.records).length_le.trans p.steps_fit

theorem State.Timed.filter (h : s.Timed) {keep : Claim → Bool} {kept : ExpiryEntry → Bool}
    (claims : t.claims = s.claims.filter keep) (entries : t.expiryList = s.expiryList.filter kept) (now : t.now = s.now) :
    t.Timed where
  times c hc := h.times c (List.mem_filter.mp (claims ▸ hc)).1
  near e he := now ▸ h.near e (List.mem_filter.mp (entries ▸ he)).1
  order := by unfold State.ExpiriesInOrder; rw [entries, now]; exact h.order.filter _
  instant_due c hc := now ▸ h.instant_due c (List.mem_filter.mp (claims ▸ hc)).1

/-- R60, R77: the roles of the claims are nothing to the pools. -/
theorem State.PoolCore.roles (h : s.PoolCore) {role : Claim → Role}
    (claims : t.claims = s.claims.map (fun c => { c with role := role c })) (entries : t.expiryList = s.expiryList)
    (stamps : t.stampCount = s.stampCount) : t.PoolCore where
  claims_fit := by rw [claims, List.length_map]; exact h.claims_fit
  numbers_differ := by rw [claims, List.map_map]; exact h.numbers_differ
  places_differ := by rw [claims, List.map_map]; exact h.places_differ
  orders_differ := by rw [claims, List.map_map]; exact h.orders_differ
  in_pool c hc := by
    rw [claims] at hc
    obtain ⟨d, hd, rfl⟩ := List.mem_map.mp hc
    obtain ⟨number_fits, queue_fits, low_fits, order_past, queue_behind⟩ := h.in_pool d hd
    exact ⟨number_fits, queue_fits, low_fits, stamps ▸ order_past, queue_behind⟩
  entries := by rw [entries, claims, List.filterMap_map]; exact h.entries

theorem State.stepRecords_roles {role : Claim → Role}
    (claims : t.claims = s.claims.map (fun c => { c with role := role c })) : t.stepRecords = s.stepRecords := by
  unfold State.stepRecords; rw [claims, List.flatMap_map]; rfl

theorem State.Timed.roles (h : s.Timed) {role : Claim → Role}
    (claims : t.claims = s.claims.map (fun c => { c with role := role c })) (entries : t.expiryList = s.expiryList)
    (now : t.now = s.now) : t.Timed where
  times c hc := by
    rw [claims] at hc
    obtain ⟨d, hd, rfl⟩ := List.mem_map.mp hc
    exact h.times d hd
  near := by unfold State.ExpiriesNear; rw [entries, now]; exact h.near
  order := by unfold State.ExpiriesInOrder; rw [entries, now]; exact h.order
  instant_due c hc := by
    rw [claims] at hc
    obtain ⟨d, hd, rfl⟩ := List.mem_map.mp hc
    rw [now]
    exact h.instant_due d hd

/-- R90: an event that brings no record into use leaves every record used once. -/
theorem State.RecordsSound.subperm (h : s.RecordsSound) (sub : t.stepRecords.Subperm s.stepRecords) : t.RecordsSound := by
  obtain ⟨records, permuted, less⟩ := sub
  exact ⟨permuted.nodup_iff.mp (h.1.sublist less), fun k hk => h.2 k (less.subset (permuted.mem_iff.mpr hk))⟩

end

end Sys2Proof.Machine
end

section
/-! PROOF. The retirement of steps (R97 to R101): what one retirement makes of its claim, and what is left when every step
of no time has retired. -/

namespace Sys2Proof.Machine

/-! ### A claim on its way through an operation -/

section
variable {s u : State} {cs : List Claim} {c d : Claim}

theorem rewritten_self {cs : List Claim} (numbers : (cs.map (·.number)).Nodup) (mem : c ∈ cs) : rewritten c cs = cs :=
  (List.map_congr_left fun x hx => by
    split
    · exact (List.inj_on_of_nodup_map numbers hx mem ‹_›).symm
    · rfl).trans (List.map_id _)

/-- A further change of a claim that an operation has rewritten already. -/
theorem State.mapClaim_of_rewritten (numbers : (cs.map (·.number)).Nodup) (mem : c ∈ cs) (number : d.number = c.number)
    (claims : u.claims = rewritten d cs) {change : Claim → Claim} (same : (change d).number = d.number) :
    (u.mapClaim c.number change).claims = rewritten (change d) cs := by
  have numbers' : (u.claims.map (·.number)).Nodup := by rw [claims, rewritten_numbers]; exact numbers
  have mem' : d ∈ u.claims := by rw [claims, mem_rewritten numbers mem number]; exact .inl rfl
  rw [← number, State.mapClaim_rewritten numbers' mem' same, claims, rewritten_rewritten same]

theorem State.claim_of_rewritten (numbers : (cs.map (·.number)).Nodup) (mem : c ∈ cs) (number : d.number = c.number)
    (claims : u.claims = rewritten d cs) : u.claim c.number = some d := by
  have numbers' : (u.claims.map (·.number)).Nodup := by rw [claims, rewritten_numbers]; exact numbers
  have mem' : d ∈ u.claims := by rw [claims, mem_rewritten numbers mem number]; exact .inl rfl
  cases found : u.claim c.number with
  | none => simpa [number] using List.find?_eq_none.mp found d mem'
  | some x =>
    have same : x.number = c.number := by simpa using List.find?_some found
    rw [List.inj_on_of_nodup_map numbers' (List.mem_of_find?_eq_some found) mem' (same.trans number.symm)]

end

/-! ### What a retirement makes of its claim (R98, R99, R101) -/

/-- R91: a step that starts from a value at a reading. -/
def Step.runFrom (x : Step) (value : Value) (start : Reading) (dropIn : Bool) : RunningStep :=
  { step := x, startValue := value, startTime := start, adjusted := x.curve.adjust dropIn x.tie
    expiry := start + BitVec.ofNat 32 (x.duration + x.dwell) }

/-- R101: whether QUEUE_LOW is due of a claim from whose pending queue a step has started. -/
def Claim.low (c : Claim) : Bool := decide (c.mode = .oneShot ∧ c.armed = true ∧ c.queue.length ≤ c.lowMark)

/-- R101: the claim when QUEUE_LOW has been raised where it is due. -/
def Claim.lowChecked (c : Claim) : Claim := if c.low then { c with armed := false } else c

/-- R101: the notice of a claim from whose pending queue a step has started. -/
def Claim.lowNotice (c : Claim) : List Notice := if c.low then [.queueLow c.slot c.group c.queue.length] else []

/-- R98: the claim when the oldest of the steps `x :: rest` starts on it as `r` retires. -/
def Claim.followed (c : Claim) (r : RunningStep) (x : Step) (rest : List Step) : Claim :=
  { c with queue := rest, running := some (x.runFrom r.step.target r.expiry r.step.tie) }

/-- R98: what the retirement of `r` makes of its claim. -/
def Claim.retired (c : Claim) (r : RunningStep) : Claim :=
  match c.queueAtRetirement r.step with
  | [] => { c with running := none, queue := [], rest := r.step.target }
  | x :: rest => (c.followed r x rest).lowChecked

/-- R101: the notices that the retirement of `r` raises to the claim's link. -/
def Claim.retireNotices (c : Claim) (r : RunningStep) : List Notice :=
  match c.queueAtRetirement r.step with
  | [] => []
  | x :: rest => (c.followed r x rest).lowNotice

/-- What no step changes of a claim: its number, its place, its role, its mode, its low mark and its stamp. -/
structure Claim.Same (c d : Claim) : Prop where
  number : d.number = c.number
  slot : d.slot = c.slot
  group : d.group = c.group
  link : d.link = c.link
  role : d.role = c.role
  mode : d.mode = c.mode
  lowMark : d.lowMark = c.lowMark
  taken : d.taken = c.taken
  takenOrder : d.takenOrder = c.takenOrder

section
variable (c : Claim) (r : RunningStep)

theorem Claim.Same.refl : c.Same c := ⟨rfl, rfl, rfl, rfl, rfl, rfl, rfl, rfl, rfl⟩

variable {c} in
theorem Claim.Same.trans {d e : Claim} (h : c.Same d) (k : d.Same e) : c.Same e :=
  ⟨k.number.trans h.number, k.slot.trans h.slot, k.group.trans h.group, k.link.trans h.link, k.role.trans h.role,
    k.mode.trans h.mode, k.lowMark.trans h.lowMark, k.taken.trans h.taken, k.takenOrder.trans h.takenOrder⟩

variable {c} in
theorem Claim.Same.place {d : Claim} (h : c.Same d) : d.place = c.place := by
  unfold Claim.place; rw [h.link, h.slot, h.group]

theorem Claim.lowChecked_same : c.Same c.lowChecked := by
  unfold Claim.lowChecked
  split <;> exact ⟨rfl, rfl, rfl, rfl, rfl, rfl, rfl, rfl, rfl⟩

theorem Claim.lowChecked_steps : c.lowChecked.running = c.running ∧ c.lowChecked.queue = c.queue ∧
    c.lowChecked.rest = c.rest := by
  unfold Claim.lowChecked; split <;> exact ⟨rfl, rfl, rfl⟩

theorem Claim.retired_same : c.Same (c.retired r) := by
  unfold Claim.retired
  split
  · exact ⟨rfl, rfl, rfl, rfl, rfl, rfl, rfl, rfl, rfl⟩
  · rename_i x rest _
    have followed : c.Same (c.followed r x rest) := ⟨rfl, rfl, rfl, rfl, rfl, rfl, rfl, rfl, rfl⟩
    exact followed.trans (Claim.lowChecked_same _)

/-- R98: the steps left are those from which the next was taken. -/
theorem Claim.retired_steps : (c.retired r).steps = c.queueAtRetirement r.step := by
  unfold Claim.retired Claim.steps
  split <;> rename_i follows
  · exact follows.symm
  · obtain ⟨running, queue, -⟩ := Claim.lowChecked_steps (c.followed r ‹_› ‹_›)
    rw [running, queue, follows]
    rfl

/-- R98: the step that follows starts at the expiry time of the one that retires. -/
theorem Claim.retired_running {q : RunningStep} (run : (c.retired r).running = some q) :
    ∃ x rest, c.queueAtRetirement r.step = x :: rest ∧ q = x.runFrom r.step.target r.expiry r.step.tie := by
  unfold Claim.retired at run
  split at run <;> rename_i follows
  · cases run
  · rw [(Claim.lowChecked_steps _).1] at run
    exact ⟨_, _, follows, (Option.some.inj run).symm⟩

theorem Claim.queueAtRetirement_of_instant {x : Step} (h : x.instant = true) : c.queueAtRetirement x = c.queue := by
  unfold Claim.queueAtRetirement
  rw [if_neg]
  rintro ⟨-, -, timed⟩
  rw [h] at timed
  cases timed

variable {c r}

/-- R90, R98: no retirement brings a record into use. -/
theorem Claim.retired_records (run : c.running = some r) : (c.retired r).records.Subperm c.records := by
  rw [Claim.records_eq, Claim.records_eq, Claim.retired_steps]
  have steps : c.steps = r.step :: c.queue := by unfold Claim.steps; rw [run]; rfl
  rw [steps]
  unfold Claim.queueAtRetirement
  split
  · exact ((List.perm_append_comm (l₁ := c.queue) (l₂ := [r.step])).map _).subperm
  · exact .cons_self

/-- R99: a step of no time returns its record. -/
theorem Claim.retired_records_of_instant (run : c.running = some r) (instant : r.step.instant = true) :
    (c.retired r).records.length + 1 = c.records.length := by
  rw [Claim.records_eq, Claim.records_eq, Claim.retired_steps, c.queueAtRetirement_of_instant instant]
  unfold Claim.steps
  simp [run]

theorem Claim.InPool.retired {stamps : Nat} (h : c.InPool stamps) : (c.retired r).InPool stamps := by
  obtain ⟨number_fits, queue_fits, low_fits, order_past, -⟩ := h
  have same := c.retired_same r
  have steps := c.retired_steps r
  have fits : (c.queueAtRetirement r.step).length ≤ 8 := by
    unfold Claim.queueAtRetirement Config.pendingQueueSize
    split
    · simp only [List.length_append, List.length_singleton]; omega
    · exact queue_fits
  have behind : (c.retired r).running = none → (c.retired r).queue = [] := by
    unfold Claim.retired
    split
    · exact fun _ => rfl
    · rw [(Claim.lowChecked_steps _).1]; exact fun none => nomatch none
  refine ⟨same.number ▸ number_fits, ?_, same.lowMark ▸ low_fits, same.takenOrder ▸ order_past, behind⟩
  rw [← steps] at fits
  exact (List.sublist_append_right _ _).length_le.trans fits

end

/-- R97: a step that starts no later than now, with its times in range, expires within reach, and no later than now where
it has no time. -/
theorem Step.runFrom_near {now start : Reading} {x : Step} (near : ExpiryNear now start) (due : timeLeft now start ≤ 0)
    (fits : x.TimesFit) {value : Value} {dropIn : Bool} :
    ExpiryNear now (x.runFrom value start dropIn).expiry ∧
      (x.instant = true → timeLeft now (x.runFrom value start dropIn).expiry ≤ 0) := by
  obtain ⟨duration, dwell⟩ := fits
  have later : timeLeft now (x.runFrom value start dropIn).expiry = timeLeft now start + (x.duration + x.dwell : Nat) := by
    unfold ExpiryNear timeLeft at *
    have split : (x.runFrom value start dropIn).expiry - now = start - now + BitVec.ofNat 32 (x.duration + x.dwell) := by
      unfold Step.runFrom; dsimp only; bv_omega
    rw [split]
    generalize start - now = u at *
    have := u.isLt
    simp only [BitVec.toInt_eq_toNat_cond, BitVec.toNat_add, BitVec.toNat_ofNat] at *
    split at near <;> split <;> simp only [*, if_true, if_false] at * <;> omega
  unfold ExpiryNear at *
  refine ⟨by omega, fun instant => ?_⟩
  simp only [Step.instant, Bool.and_eq_true, decide_eq_true_eq] at instant
  omega

/-! ### One retirement (R98) -/

section
variable {s : State} {c : Claim} {r : RunningStep}

/-- R101: the low mark of a claim that an operation has rewritten is checked. -/
theorem State.checkLowMark_of_rewritten {u : State} {cs : List Claim} {d : Claim} (numbers : (cs.map (·.number)).Nodup)
    (mem : c ∈ cs) (number : d.number = c.number) (claims : u.claims = rewritten d cs) :
    (u.checkLowMark c.number).claims = rewritten d.lowChecked cs ∧
      Told u (u.checkLowMark c.number) (fun k => if k = d.link then d.lowNotice else []) := by
  have found := State.claim_of_rewritten numbers mem number claims
  unfold State.checkLowMark Claim.lowChecked Claim.lowNotice
  rw [found]
  dsimp only
  by_cases low : d.mode = .oneShot ∧ d.armed = true ∧ d.queue.length ≤ d.lowMark
  · have due : d.low = true := decide_eq_true low
    rw [if_pos low, if_pos due, if_pos due]
    exact ⟨State.mapClaim_of_rewritten numbers mem number claims (change := fun c => { c with armed := false }) rfl,
      State.raiseTo_told _ d.link _⟩
  · have not_due : ¬d.low = true := mt of_decide_eq_true low
    rw [if_neg low, if_neg not_due, if_neg not_due]
    exact ⟨claims, fun k => by dsimp only; split <;> rfl⟩

/-- R97, R98, R101: a retirement rewrites its claim, puts its entry in anew, sets CHANGED where a step follows, and tells
the claim's link where the queue is low. -/
theorem State.retire_spec (numbers : (s.claims.map (·.number)).Nodup) (mem : c ∈ s.claims) :
    (s.retire c r).claims = rewritten (c.retired r) s.claims ∧
      (s.retire c r).expiryList = reentered c.number (c.retired r).running s.expiryList ∧
      (s.retire c r).slots = (if (c.retired r).running.isSome then (s.setChanged c.slot).slots else s.slots) ∧
      Told s (s.retire c r) (fun k => if k = c.link then c.retireNotices r else []) := by
  unfold Claim.retired Claim.retireNotices
  cases follows : c.queueAtRetirement r.step with
  | nil =>
    rw [State.retire_last follows]
    refine ⟨?_, rfl, rfl, fun k => by dsimp only; split <;> rfl⟩
    exact State.mapClaim_rewritten (s := { s with expiryList := s.expiryList.filter (fun e => decide (e.claim ≠ c.number)) })
      (change := fun c => { c with running := none, queue := [], rest := r.step.target }) numbers mem rfl
  | cons x rest =>
    rw [State.retire_next follows]
    obtain ⟨running, -, -⟩ := Claim.lowChecked_steps (c.followed r x rest)
    dsimp only
    rw [running]
    have queued := State.mapClaim_rewritten
      (s := { s with expiryList := s.expiryList.filter (fun e => decide (e.claim ≠ c.number)) })
      (change := fun c => { c with queue := rest }) numbers mem rfl
    generalize hu : { s with expiryList := s.expiryList.filter (fun e => decide (e.claim ≠ c.number)) }.mapClaim c.number
      (fun c => { c with queue := rest }) = u at queued ⊢
    have started : (u.startStep c.number c.slot x r.step.target r.expiry r.step.tie).claims =
        rewritten (c.followed r x rest) s.claims :=
      State.mapClaim_of_rewritten (d := { c with queue := rest }) numbers mem rfl queued
        (change := fun c => { c with running := some (x.runFrom r.step.target r.expiry r.step.tie) }) rfl
    obtain ⟨checked, told⟩ := State.checkLowMark_of_rewritten (d := c.followed r x rest) numbers mem rfl started
    have frame := (State.checkLowMark_frame (u.startStep c.number c.slot x r.step.target r.expiry r.step.tie) c.number).1
    refine ⟨checked, ?_, ?_, fun k => ?_⟩
    · rw [frame, ← hu]; rfl
    · rw [frame, ← hu]; rfl
    · rw [told k, ← hu]; rfl

/-- R55, R56, R97: a retirement keeps the pool. -/
theorem State.PoolCore.retire (h : s.PoolCore) (mem : c ∈ s.claims) : (s.retire c r).PoolCore := by
  obtain ⟨claims, entries, -, -⟩ := State.retire_spec (r := r) h.numbers_differ mem
  have same := c.retired_same r
  have stamps : (s.retire c r).stampCount = s.stampCount := by rw [(s.retire_frame c r).1]
  refine h.rewrite mem same.number same.place claims (.inl ?_) stamps.ge (.inl same.takenOrder) ?_
  · rw [same.number]; exact entries
  · rw [stamps]; exact (h.in_pool c mem).retired

theorem State.PoolCore.retire_subperm (h : s.PoolCore) (mem : c ∈ s.claims) (run : c.running = some r) :
    (s.retire c r).stepRecords.Subperm s.stepRecords :=
  h.rewrite_subperm mem (c.retired_same r).number (State.retire_spec h.numbers_differ mem).1 (Claim.retired_records run)

/-- R97: the retirement of a step that is due keeps the expiry list in its order. -/
theorem State.Timed.retire (h : s.Timed) (core : s.PoolCore) (mem : c ∈ s.claims) (run : c.running = some r)
    (due : timeLeft s.now r.expiry ≤ 0) : (s.retire c r).Timed := by
  obtain ⟨claims, entries, -, -⟩ := State.retire_spec (r := r) core.numbers_differ mem
  have same := c.retired_same r
  have now : (s.retire c r).now = s.now := by rw [(s.retire_frame c r).1]; rfl
  have own : ∀ x ∈ c.queueAtRetirement r.step, x.TimesFit := fun x hx => by
    refine h.times c mem x ?_
    unfold Claim.steps
    rw [run]
    rcases mem_queueAtRetirement hx with hx | rfl
    · exact List.mem_append_right _ hx
    · exact List.mem_append_left _ (by simp)
  have near : ExpiryNear s.now r.expiry := by
    refine h.near ⟨c.number, r.expiry⟩ (core.entries.mem_iff.mpr (List.mem_filterMap.mpr ⟨c, mem, ?_⟩))
    exact Claim.entry_eq_some.mpr ⟨rfl, r, run, rfl⟩
  refine h.rewrite core mem same.number claims (.inl (by rw [same.number]; exact entries)) now ?_ (.inr fun q hq => ?_)
  · rw [Claim.retired_steps]; exact own
  · obtain ⟨x, rest, follows, rfl⟩ := Claim.retired_running c r hq
    have fits := own x (by rw [follows]; exact List.mem_cons_self)
    exact Step.runFrom_near near due fits

end

end Sys2Proof.Machine
end

section
/-! PROOF. The end of an event that started steps (R97, R99): every step of no time retires, claim by claim, in whatever
order the expiry list gives. -/

namespace Sys2Proof.Machine

/-! ### Running off the steps of no time -/

section
variable {s : State} {c : Claim} {r : RunningStep}

/-- The entry found is of a claim of the pool that runs a step of no time. -/
theorem State.instantEntry_spec (h : s.instantEntry = some (c, r)) :
    c ∈ s.claims ∧ c.running = some r ∧ r.step.instant = true := by
  obtain ⟨mem, run⟩ := State.instantEntry_mem h
  refine ⟨mem, run, ?_⟩
  unfold State.instantEntry at h
  obtain ⟨e, -, found⟩ := List.exists_of_findSome?_eq_some h
  split at found
  · cases found
  · split at found
    · cases found
    · split at found
      · cases found; assumption
      · cases found

/-- R97: where the list holds no entry of a step of no time, no claim runs one. -/
theorem State.PoolCore.settled_of_instantEntry (h : s.PoolCore) (none : s.instantEntry = none) : s.Settled := by
  intro c mem r run
  unfold State.instantEntry at none
  rw [List.findSome?_eq_none_iff] at none
  have entry : (⟨c.number, r.expiry⟩ : ExpiryEntry) ∈ s.expiryList :=
    h.entries.mem_iff.mpr (List.mem_filterMap.mpr ⟨c, mem, Claim.entry_eq_some.mpr ⟨rfl, r, run, rfl⟩⟩)
  have skipped := none _ entry
  rw [h.claim_iff.mpr ⟨mem, rfl⟩] at skipped
  simpa [run] using skipped

/-- R90: where no step is in use, no claim runs one. -/
theorem State.settled_of_no_steps (h : s.stepRecords = []) : s.Settled := by
  intro c mem r run
  have none := List.flatMap_eq_nil_iff.mp h c mem
  rw [Claim.records_eq, Claim.steps, run] at none
  cases none

theorem State.PoolCore.retire_instant_length (h : s.PoolCore) (found : s.instantEntry = some (c, r)) :
    (s.retire c r).stepRecords.length + 1 = s.stepRecords.length := by
  obtain ⟨mem, run, instant⟩ := State.instantEntry_spec found
  obtain ⟨before, after⟩ := h.rewrite_records (t := s.retire c r) mem (c.retired_same r).number
    (State.retire_spec h.numbers_differ mem).1
  have less := Claim.retired_records_of_instant run instant
  rw [before.length_eq, after.length_eq, List.length_append, List.length_append]
  omega

/-- R97, R99: what holds before the end of an event, and is kept by each retirement of the first step of no time, holds
after it, when no claim runs such a step any more: each retirement returns a record for good. -/
theorem State.settleSteps_induction {P : State → Prop} (core : s.PoolCore) (fits : s.stepRecords.length ≤ 4096) (start : P s)
    (step : ∀ u c r, u.PoolCore → u.instantEntry = some (c, r) → P u → P (u.retire c r)) :
    s.settleSteps.PoolCore ∧ s.settleSteps.Settled ∧ P s.settleSteps := by
  have run : ∀ (fuel : Nat) (u : State), u.PoolCore → u.stepRecords.length ≤ fuel → P u →
      (State.retireInstant fuel u).PoolCore ∧ (State.retireInstant fuel u).Settled ∧ P (State.retireInstant fuel u) := by
    intro fuel
    induction fuel with
    | zero =>
      intro u core fits holds
      exact ⟨core, State.settled_of_no_steps (List.length_eq_zero_iff.mp (Nat.le_zero.mp fits)), holds⟩
    | succ fuel ih =>
      intro u core fits holds
      unfold State.retireInstant
      cases found : u.instantEntry with
      | none => exact ⟨core, core.settled_of_instantEntry found, holds⟩
      | some entry =>
        obtain ⟨c, r⟩ := entry
        have less := core.retire_instant_length found
        exact ih _ (core.retire (State.instantEntry_spec found).1) (by omega) (step u c r core found holds)
  unfold State.settleSteps
  exact run _ s core fits start

/-! ### What is left of a claim -/

/-- R97 to R101: the claim when its steps of no time have retired, one after another. -/
def Claim.endedBy : List Step → Claim → Claim
  | [], c =>
    match c.running with
    | none => c
    | some r => if r.step.instant then c.retired r else c
  | _ :: rest, c =>
    match c.running with
    | none => c
    | some r => if r.step.instant then Claim.endedBy rest (c.retired r) else c

/-- R97 to R101: the claim at the end of an event that started a step on it. -/
def Claim.ended (c : Claim) : Claim := Claim.endedBy c.queue c

theorem Claim.ended_of_rest (h : c.running = none) : c.ended = c := by
  unfold Claim.ended Claim.endedBy; split <;> simp [h]

theorem Claim.ended_of_timed (h : c.running = some r) (timed : r.step.instant = false) : c.ended = c := by
  unfold Claim.ended Claim.endedBy; split <;> simp [h, timed]

/-- R97: a step of no time retires, and what is left of the claim is left by what it then is. -/
theorem Claim.ended_of_instant (h : c.running = some r) (instant : r.step.instant = true) :
    c.ended = (c.retired r).ended := by
  have follows := c.queueAtRetirement_of_instant instant
  unfold Claim.ended
  cases queue : c.queue with
  | nil =>
    have rests : (c.retired r).running = none := by unfold Claim.retired; rw [follows, queue]
    refine Eq.trans ?_ (Claim.ended_of_rest rests).symm
    simp [Claim.endedBy, h, instant]
  | cons x rest =>
    have left : (c.retired r).queue = rest := by
      unfold Claim.retired
      rw [follows, queue]
      exact (Claim.lowChecked_steps _).2.1
    rw [left]
    simp [Claim.endedBy, h, instant]

theorem State.Settled.map_settled (h : s.Settled) : s.claims.map Claim.ended = s.claims := by
  refine (List.map_congr_left fun c mem => ?_).trans (List.map_id _)
  cases run : c.running with
  | none => exact Claim.ended_of_rest run
  | some r => exact Claim.ended_of_timed run (h c mem r run)

theorem Claim.endedBy_same (steps : List Step) (c : Claim) : c.Same (Claim.endedBy steps c) := by
  induction steps generalizing c with
  | nil =>
    unfold Claim.endedBy
    split
    · exact .refl c
    · split
      · exact c.retired_same _
      · exact .refl c
  | cons x rest ih =>
    unfold Claim.endedBy
    split
    · exact .refl c
    · split
      · exact (c.retired_same _).trans (ih _)
      · exact .refl c

theorem Claim.ended_same (c : Claim) : c.Same c.ended := Claim.endedBy_same _ c

/-- A rewritten claim from which the same is left leaves all the same. -/
theorem map_rewritten {α : Type} {f : Claim → α} {cs : List Claim} {d : Claim} (numbers : (cs.map (·.number)).Nodup)
    (mem : c ∈ cs) (number : d.number = c.number) (same : f d = f c) : (rewritten d cs).map f = cs.map f := by
  unfold rewritten
  rw [List.map_map]
  refine List.map_congr_left fun x hx => ?_
  simp only [Function.comp_apply]
  split
  · rename_i e
    rw [same, List.inj_on_of_nodup_map numbers hx mem (e.trans number)]
  · rfl

/-- R97, R99: at the end of an event the pool holds what is left of each claim, and no claim runs a step of no time. -/
theorem State.PoolCore.settleSteps (core : s.PoolCore) (fits : s.stepRecords.length ≤ 4096) :
    s.settleSteps.PoolCore ∧ s.settleSteps.Settled ∧ s.settleSteps.claims = s.claims.map Claim.ended ∧
      s.settleSteps.stepRecords.Subperm s.stepRecords := by
  obtain ⟨core', settled, left, records⟩ := State.settleSteps_induction (P := fun u =>
      u.claims.map Claim.ended = s.claims.map Claim.ended ∧ u.stepRecords.Subperm s.stepRecords)
    core fits ⟨rfl, .refl _⟩ fun u c r core found ⟨left, records⟩ => by
      obtain ⟨mem, run, instant⟩ := State.instantEntry_spec found
      refine ⟨?_, (core.retire_subperm mem run).trans records⟩
      rw [(State.retire_spec core.numbers_differ mem).1, map_rewritten core.numbers_differ mem (c.retired_same r).number
        (Claim.ended_of_instant run instant).symm]
      exact left
  exact ⟨core', settled, settled.map_settled.symm.trans left, records⟩

/-- R97: the retirement of steps of no time keeps the expiry list in its order. -/
theorem State.Timed.settleSteps (h : s.Timed) (core : s.PoolCore) (fits : s.stepRecords.length ≤ 4096) :
    s.settleSteps.Timed :=
  (State.settleSteps_induction (P := State.Timed) core fits h fun u c r core found timed => by
    obtain ⟨mem, run, instant⟩ := State.instantEntry_spec found
    exact timed.retire core mem run (timed.instant_due c mem r run instant)).2.2

end

end Sys2Proof.Machine
end

section
/-! PROOF. One slot of a SEIZE or a STEP (R56, R57, R61 to R63): the link's claim found or created, what its stamp makes of
the stack, and the slots of a request one after another. -/

namespace Sys2Proof.Machine

/-! ### What depends on some of the claims alone -/

section
variable {s t : State} {keep : Claim → Bool}

theorem State.claimOf_of_filter (same : t.claims.filter keep = s.claims.filter keep) {k : Link} {m : SlotNo} {h : Group}
    (all : ∀ c : Claim, c.place = (k, m, h) → keep c = true) : t.claimOf k m h = s.claimOf k m h := by
  have only : ∀ cs : List Claim,
      cs.find? (fun c => decide (c.link = k) && decide (c.slot = m) && decide (c.group = h)) =
        (cs.filter keep).find? (fun c => decide (c.link = k) && decide (c.slot = m) && decide (c.group = h)) := fun cs => by
    rw [List.find?_filter]
    congr 1
    funext c
    rw [Bool.eq_iff_iff, decide_eq_true_eq]
    refine ⟨fun on => ⟨all c ?_, on⟩, And.right⟩
    simp only [Bool.and_eq_true, decide_eq_true_eq] at on
    rw [Claim.place, on.1.1, on.1.2, on.2]
  unfold State.claimOf
  rw [only t.claims, same, ← only]

theorem State.stack_of_filter (same : t.claims.filter keep = s.claims.filter keep) {m : SlotNo} {h : Group}
    (all : ∀ c : Claim, c.slot = m → c.group = h → keep c = true) : t.stack m h = s.stack m h := by
  have only : ∀ cs : List Claim, cs.filter (fun c => decide (c.slot = m) && decide (c.group = h)) =
      (cs.filter keep).filter (fun c => decide (c.slot = m) && decide (c.group = h)) := fun cs => by
    rw [List.filter_filter]
    refine List.filter_congr fun c _ => ?_
    refine (Bool.and_eq_left_iff_imp.mpr fun on => ?_).symm
    simp only [Bool.and_eq_true, decide_eq_true_eq] at on
    exact all c on.1 on.2
  unfold State.stack
  rw [only t.claims, same, ← only]

theorem filter_insertByNumber {c : Claim} (out : keep c = false) (cs : List Claim) :
    (insertByNumber c cs).filter keep = cs.filter keep := by
  induction cs with
  | nil => simp [insertByNumber, out]
  | cons d rest ih =>
    unfold insertByNumber
    split
    · rw [List.filter_cons, List.filter_cons, ih]
    · rw [List.filter_cons_of_neg (by simp [out])]

theorem filter_rewritten {cs : List Claim} {c d : Claim} (numbers : (cs.map (·.number)).Nodup) (mem : c ∈ cs)
    (number : d.number = c.number) (out : keep c = false) (out' : keep d = false) :
    (rewritten d cs).filter keep = cs.filter keep := by
  unfold rewritten
  rw [List.filter_map]
  have same : cs.filter (keep ∘ fun x => if x.number = d.number then d else x) = cs.filter keep :=
    List.filter_congr fun x hx => by
      simp only [Function.comp_apply]
      split
      · rename_i e
        rw [List.inj_on_of_nodup_map numbers hx mem (e.trans number), out, out']
      · rfl
  rw [same]
  refine (List.map_congr_left fun x hx => ?_).trans (List.map_id _)
  obtain ⟨hx, kept⟩ := List.mem_filter.mp hx
  refine if_neg fun e => ?_
  rw [List.inj_on_of_nodup_map numbers hx mem (e.trans number), out] at kept
  cases kept

end

/-! ### The owner of a group (R57, R58) -/

section
variable {s t : State} {n : SlotNo} {g : Group}

/-- R57, R58: of the LIVE claims of a group, none stands before this one. -/
def State.Leads (s : State) (n : SlotNo) (g : Group) (c : Claim) : Prop :=
  c ∈ s.claims ∧ c.slot = n ∧ c.group = g ∧ c.role = .live ∧
    ∀ d ∈ s.claims, d.slot = n → d.group = g → d.role = .live →
      c.link.tier ≤ d.link.tier ∧ (d.link.tier = c.link.tier → d.takenOrder ≤ c.takenOrder)

/-- R57: the owner is the one LIVE claim that leads: the stamps are set one after another. -/
theorem State.PoolCore.owner_iff (h : s.PoolCore) {c : Claim} : s.owner n g = some c ↔ s.Leads n g c := by
  obtain ⟨leads, none⟩ := ownerIsTheHighestLiveClaim s n g
  refine ⟨leads c, fun ⟨mem, slot, group, live, first⟩ => ?_⟩
  cases owner : s.owner n g with
  | none => rw [none owner c mem slot group] at live; cases live
  | some d =>
    obtain ⟨mem', slot', group', live', first'⟩ := leads d owner
    obtain ⟨tier, later⟩ := first d mem' slot' group' live'
    obtain ⟨tier', later'⟩ := first' c mem slot group live
    have same := le_antisymm tier' tier
    rw [List.inj_on_of_nodup_map h.orders_differ mem' mem (le_antisymm (later same) (later' same.symm))]

theorem State.owner_eq_none : s.owner n g = none ↔ ∀ d ∈ s.claims, d.slot = n → d.group = g → d.role = .shadow := by
  refine ⟨(ownerIsTheHighestLiveClaim s n g).2, fun shadow => ?_⟩
  cases owner : s.owner n g with
  | none => rfl
  | some c =>
    obtain ⟨mem, slot, group, live⟩ := State.owner_mem owner
    rw [shadow c mem slot group] at live
    cases live

/-- Whether a claim stands elsewhere than in the place of a link on a slot group. -/
def Claim.off (l : Link) (n : SlotNo) (g : Group) (c : Claim) : Bool := decide (c.place ≠ (l, n, g))

theorem Claim.off_eq_false {l : Link} {c : Claim} : c.off l n g = false ↔ c.place = (l, n, g) := by
  simp [Claim.off]

/-- R57, R61: when a link's claim on a group has had its stamp set, it owns the group, or the owner is as it was. -/
theorem State.PoolCore.owner_stamped (hs : s.PoolCore) (ht : t.PoolCore) {l : Link} {d : Claim} (mem : d ∈ t.claims)
    (place : d.place = (l, n, g)) (others : t.claims.filter (Claim.off l n g) = s.claims.filter (Claim.off l n g))
    (latest : s.stampCount ≤ d.takenOrder) (role : ∀ c, s.claimOf l n g = some c → c.role = d.role) :
    t.owner n g = some d ∨ t.owner n g = s.owner n g := by
  have other : ∀ {x : Claim}, x.place ≠ (l, n, g) → (x ∈ t.claims ↔ x ∈ s.claims) := fun {x} out => by
    have both : x ∈ t.claims.filter (Claim.off l n g) ↔ x ∈ s.claims.filter (Claim.off l n g) := by rw [others]
    simpa [Claim.off, out] using both
  have own : ∀ {x}, x ∈ t.claims → x.place = (l, n, g) → x = d := fun hx e =>
    List.inj_on_of_nodup_map ht.places_differ hx mem (e.trans place.symm)
  have slot : d.slot = n := congrArg (·.2.1) place
  have group : d.group = g := congrArg (·.2.2) place
  have link : d.link = l := congrArg (·.1) place
  cases owner : t.owner n g with
  | none =>
    refine .inr (Eq.symm ?_)
    rw [State.owner_eq_none] at owner ⊢
    intro x hx on group'
    by_cases e : x.place = (l, n, g)
    · rw [role x (hs.claimOf_iff.mpr ⟨hx, e⟩)]
      exact owner d mem slot group
    · exact owner x ((other e).mpr hx) on group'
  | some e =>
    by_cases same : e = d
    · exact .inl (same ▸ rfl)
    · refine .inr (Eq.symm ?_)
      rw [ht.owner_iff] at owner
      rw [hs.owner_iff]
      obtain ⟨he, on, group', live, first⟩ := owner
      have out : e.place ≠ (l, n, g) := fun p => same (own he p)
      refine ⟨(other out).mp he, on, group', live, fun x hx hn hg hlive => ?_⟩
      by_cases p : x.place = (l, n, g)
      · have found := hs.claimOf_iff.mpr ⟨hx, p⟩
        obtain ⟨tier, later⟩ := first d mem slot group ((role x found).symm.trans hlive)
        have past := (hs.in_pool e ((other out).mp he)).order_past
        have linked : x.link = d.link := (congrArg (·.1) p).trans link.symm
        rw [linked]
        exact ⟨tier, fun same => by have := later same; omega⟩
      · exact first x ((other p).mpr hx) hn hg hlive

end

/-! ### A claim created (R55, R56) -/

section
variable (s : State) (l : Link) (n : SlotNo) (g : Group) (rest : Value)

/-- R55, R56, R62: the claim that a link creates on a slot group. -/
def State.newClaim : Claim :=
  { number := firstFree (s.claims.map (·.number)) s.claims.length 0
    slot := n, group := g, link := l, role := s.pair.roleFor l, mode := .oneShot, rest := rest, running := none
    queue := [], lowMark := 0, armed := true, taken := s.now, takenOrder := s.stampCount }

theorem State.createClaim_eq : s.createClaim l n g rest =
    { s with claims := insertByNumber (s.newClaim l n g rest) s.claims, stampCount := s.stampCount + 1 } := rfl

theorem State.newClaim_number : (s.newClaim l n g rest).number ∉ s.claims.map (·.number) ∧
    (∀ j < (s.newClaim l n g rest).number, j ∈ s.claims.map (·.number)) ∧
      (s.newClaim l n g rest).number ≤ s.claims.length := by
  have free := firstFree_free (s.claims.map (·.number))
  rwa [List.length_map] at free

variable {s l n g}

theorem State.PoolCore.createClaim (h : s.PoolCore) (unclaimed : s.claimOf l n g = none) (room : s.claims.length < 1024) :
    (s.createClaim l n g rest).PoolCore := by
  obtain ⟨number, -, small⟩ := s.newClaim_number l n g rest
  refine h.create (insertByNumber_perm _ _) rfl room number (fun held => ?_) rfl rfl rfl
    ⟨small.trans_lt room, Nat.zero_le _, Nat.zero_le _, Nat.lt_succ_self _, fun _ => rfl⟩
  obtain ⟨x, hx, place⟩ := List.mem_map.mp held
  have found := h.claimOf_iff.mpr ⟨hx, place⟩
  rw [show s.claimOf l n g = none from unclaimed] at found
  cases found

end

end Sys2Proof.Machine
end

section
/-! PROOF. The slots of a SEIZE or a STEP one after another (R62, R94): what each finds, what all of them leave, and the
notices of displacement (R71). -/

namespace Sys2Proof.Machine

/-! ### The notices of displacement (R71) -/

/-- The group that a link lost on a slot to a request of the link `l`, if one did. -/
def lostAt (s t : State) (l : Link) (g : Group) (n : SlotNo) : List (Link × SlotNo) :=
  match s.owner n g with
  | none => []
  | some b => if b.link ≠ l ∧ (t.owner n g).map (·.link) = some l then [(b.link, n)] else []

/-- The notice of displacement that the slots lost make for the link that lost them. -/
def lossNotices (g : Group) (taker : Link) (slots : List SlotNo) : List Notice :=
  if slots.isEmpty then [] else [.claimDisplaced g taker (lowestSlot slots) slots.length]

/-- R71: the notice does not depend on the order in which the groups were lost. -/
theorem lossNotices_eq {g : Group} {taker : Link} {slots sorted : List SlotNo} (perm : sorted.Perm slots)
    (ordered : sorted.Pairwise (· ≤ ·)) : lossNotices g taker slots = displacedNotices g taker sorted := by
  cases sorted with
  | nil =>
    have : slots = [] := perm.symm.eq_nil
    simp [this, lossNotices, displacedNotices]
  | cons n rest =>
    have filled : slots.isEmpty = false := by
      cases slots with
      | nil => exact nomatch perm.length_eq
      | cons => rfl
    have lowest : lowestSlot slots = n.val := by
      refine lowestSlot_eq (perm.mem_iff.mp List.mem_cons_self) fun m hm => ?_
      rcases List.mem_cons.mp (perm.mem_iff.mpr hm) with rfl | hm
      · exact le_rfl
      · exact (List.pairwise_cons.mp ordered).1 m hm
    simp only [lossNotices, filled, Bool.false_eq_true, if_false, displacedNotices, lowest, ← perm.length_eq,
      List.length_cons]

theorem State.raiseDisplaced_link (s : State) (taker : Link) (g : Group) (lost : List (Link × SlotNo)) :
    Told s (s.raiseDisplaced taker g lost)
      (fun k => lossNotices g taker ((lost.filter (fun x => decide (x.1 = k))).map (·.2))) := fun k => by
  unfold State.raiseDisplaced
  rw [foldl_tell_link
    (ns := fun k => lossNotices g taker ((lost.filter (fun x => decide (x.1 = k))).map (·.2))) ?_ (by decide)]
  · cases k <;> rfl
  · intro s l k
    dsimp only
    by_cases none : ((lost.filter (fun x => decide (x.1 = l))).map (·.2)).isEmpty = true
    · simp [lossNotices, none]
    · simp only [lossNotices, none, if_false, Bool.false_eq_true]
      rw [State.raiseTo_link]
      split <;> rfl

theorem mem_lostBy {s t : State} {l k : Link} {g : Group} {slots : List SlotNo} {n : SlotNo} :
    n ∈ lostBy s t l k g slots ↔ n ∈ slots ∧ (k, n) ∈ lostAt s t l g n := by
  have all := mem_allSlots n
  unfold lostBy lostAt
  cases owner : s.owner n g with
  | none => simp [owner]
  | some b =>
    simp only [List.mem_filter, all, true_and, owner, Option.map_some, Bool.and_eq_true, decide_eq_true_eq,
      Option.some.injEq, and_assoc]
    split <;> rename_i lost
    · rw [List.mem_singleton, Prod.mk.injEq]
      constructor
      · rintro ⟨hn, -, rfl, -⟩; exact ⟨hn, rfl, rfl⟩
      · rintro ⟨hn, rfl, -⟩; exact ⟨hn, lost.1, rfl, lost.2⟩
    · constructor
      · rintro ⟨-, ne, rfl, gained⟩; exact absurd ⟨ne, gained⟩ lost
      · rintro ⟨-, no⟩; cases no

theorem lostAt_slot {s t : State} {l : Link} {g : Group} {n : SlotNo} {x : Link × SlotNo} (h : x ∈ lostAt s t l g n) :
    x.2 = n := by
  unfold lostAt at h
  split at h
  · cases h
  · split at h
    · rw [List.mem_singleton.mp h]
    · cases h

/-- R71: each link hears of the groups that it lost. -/
theorem State.raiseDisplaced_lost {s t : State} {l : Link} {g : Group} {slots : List SlotNo} (nodup : slots.Nodup) :
    Told t (t.raiseDisplaced l g (slots.flatMap (lostAt s t l g)))
      (fun k => displacedNotices g l (lostBy s t l k g slots)) := fun k => by
  have at_most : ∀ n, (lostAt s t l g n).Nodup := fun n => by
    unfold lostAt
    split
    · exact List.nodup_nil
    · split <;> simp
  have apart : (slots.flatMap (lostAt s t l g)).Nodup :=
    List.nodup_flatMap.mpr ⟨fun n _ => at_most n, nodup.imp fun {n m} ne x hx hy => ne ((lostAt_slot hx).symm.trans (lostAt_slot hy))⟩
  have sorted : (lostBy s t l k g slots).Pairwise (· < ·) := (List.pairwise_lt_finRange 192).filter _
  rw [State.raiseDisplaced_link]
  dsimp only
  rw [lossNotices_eq ?_ (sorted.imp fun lt => lt.le)]
  refine (List.perm_ext_iff_of_nodup (sorted.imp fun lt => lt.ne) ?_).mpr fun n => ?_
  · refine List.Nodup.map_on (fun x hx y hy same => ?_) (apart.filter _)
    have linkX : x.1 = k := of_decide_eq_true (List.mem_filter.mp hx).2
    have linkY : y.1 = k := of_decide_eq_true (List.mem_filter.mp hy).2
    exact Prod.ext (linkX.trans linkY.symm) same
  · simp only [mem_lostBy, List.mem_map, List.mem_filter, List.mem_flatMap, decide_eq_true_eq]
    constructor
    · exact fun ⟨hn, lost⟩ => ⟨(k, n), ⟨⟨n, hn, lost⟩, rfl⟩, rfl⟩
    · rintro ⟨⟨j, m⟩, ⟨⟨n', hn', lost⟩, rfl⟩, rfl⟩
      cases lostAt_slot lost
      exact ⟨hn', lost⟩

/-! ### What one slot is to another -/

/-- The slot and its stacks are as they were. -/
structure SlotSame (n : SlotNo) (s t : State) : Prop where
  stack : ∀ g, t.stack n g = s.stack n g
  claims : ∀ l g, t.claimOf l n g = s.claimOf l n g
  slot : t.slot n = s.slot n

section
variable {n : SlotNo} {s t u : State}

theorem SlotSame.refl (n : SlotNo) (s : State) : SlotSame n s s := ⟨fun _ => rfl, fun _ _ => rfl, rfl⟩

theorem SlotSame.trans (h : SlotSame n s t) (k : SlotSame n t u) : SlotSame n s u :=
  ⟨fun g => (k.stack g).trans (h.stack g), fun l g => (k.claims l g).trans (h.claims l g), k.slot.trans h.slot⟩

theorem SlotSame.owner (h : SlotSame n s t) (g : Group) : t.owner n g = s.owner n g := State.owner_of_stack (h.stack g)

theorem SlotSame.ownerNumber (h : SlotSame n s t) (g : Group) : t.ownerNumber n g = s.ownerNumber n g :=
  State.ownerNumber_of_owner (h.owner g)

theorem SlotSame.present (h : SlotSame n s t) (now : t.now = s.now) (g : Group) : t.present n g = s.present n g :=
  State.present_congr now (h.owner g) (by rw [h.slot]) (by rw [h.slot])

theorem SlotSame.runningFade (h : SlotSame n s t) (now : t.now = s.now) (g : Group) :
    t.runningFade n g = s.runningFade n g := by
  unfold State.runningFade State.fade; rw [h.slot, now]

end

/-- What a SEIZE or a STEP of the link `l` leaves alone on a slot `n`, whose pools are as they are promised before and
after: everything but the link's claim on the group, the group's crossfade record, CHANGED, the count of the stamps and
the expiry list. -/
structure SlotTaken (l : Link) (g : Group) (n : SlotNo) (u v : State) (lost : List (Link × SlotNo)) : Prop where
  frame : v = { u with slots := v.slots, claims := v.claims, stampCount := v.stampCount, expiryList := v.expiryList }
  others : v.claims.filter (Claim.off l n g) = u.claims.filter (Claim.off l n g)
  slots : ∀ m, m ≠ n → v.slot m = u.slot m
  slot : v.slot n = { u.slot n with
    fades := (v.slot n).fades, flags := { (u.slot n).flags with changed := (v.slot n).flags.changed } }
  stamps : u.stampCount ≤ v.stampCount
  before : u.PoolCore
  after : v.PoolCore
  claim : ∃ d, v.claimOf l n g = some d ∧
    ∀ j, j ∈ v.claims.map (·.number) ↔ j ∈ u.claims.map (·.number) ∨ j = d.number
  count : v.claims.length = u.claims.length + if (u.claimOf l n g).isNone then 1 else 0
  lost : lost = lostAt u v l g n

/-- The claim pool covers what the link needs to hold claims on all the slots (R64, R93). -/
def State.HasRoom (s : State) (l : Link) (g : Group) (slots : List SlotNo) : Prop :=
  s.claims.length + (slots.filter (fun n => (s.claimOf l n g).isNone)).length ≤ 1024

section
variable {l : Link} {g : Group} {n : SlotNo} {u v : State} {lost : List (Link × SlotNo)}

theorem SlotTaken.same (h : SlotTaken l g n u v lost) {m : SlotNo} (ne : m ≠ n) : SlotSame m u v where
  stack _ := State.stack_of_filter h.others fun _ slot _ => decide_eq_true fun e =>
    ne (slot.symm.trans (congrArg (fun x : Link × SlotNo × Group => x.2.1) e))
  claims _ _ := State.claimOf_of_filter h.others fun _ place => decide_eq_true fun e =>
    ne (congrArg (fun x : Link × SlotNo × Group => x.2.1) (place.symm.trans e))
  slot := h.slots m ne

theorem SlotTaken.room (h : SlotTaken l g n u v lost) {ns : List SlotNo} (fresh : n ∉ ns) (room : u.HasRoom l g (n :: ns)) :
    v.HasRoom l g ns := by
  unfold State.HasRoom at *
  have rest : ns.filter (fun m => (v.claimOf l m g).isNone) = ns.filter (fun m => (u.claimOf l m g).isNone) :=
    List.filter_congr fun m hm => by rw [(h.same fun e => fresh (e ▸ hm)).claims]
  rw [rest, h.count]
  rw [List.filter_cons] at room
  split at room <;> rename_i e <;> simp only [e, Bool.false_eq_true, if_true, if_false, List.length_cons] at room ⊢ <;> omega

theorem State.HasRoom.one {ns : List SlotNo} (room : u.HasRoom l g (n :: ns)) (unclaimed : u.claimOf l n g = none) :
    u.claims.length < 1024 := by
  unfold State.HasRoom at room
  rw [List.filter_cons_of_pos (by rw [unclaimed]; rfl), List.length_cons] at room
  omega

end

/-! ### The slots one after another -/

/-- Slots served in their order, each by a change of the kind `f`, with the groups lost by all of them. -/
inductive Passage (f : SlotNo → State → State → List (Link × SlotNo) → Prop) :
    List SlotNo → State → State → List (Link × SlotNo) → Prop
  | nil (s : State) : Passage f [] s s []
  | cons {n : SlotNo} {ns : List SlotNo} {s u t : State} {a b : List (Link × SlotNo)} :
      f n s u a → Passage f ns u t b → Passage f (n :: ns) s t (a ++ b)

/-- What the slots before `n` leave to it, and what they did to the numbers in use. -/
structure Reached (l : Link) (g : Group) (ns : List SlotNo) (n : SlotNo) (s t u : State) : Prop where
  frame : u = { s with slots := u.slots, claims := u.claims, stampCount := u.stampCount, expiryList := u.expiryList }
  same : SlotSame n s u
  stamps : s.stampCount ≤ u.stampCount
  numbers : ∀ j, j ∈ u.claims.map (·.number) ↔ j ∈ s.claims.map (·.number) ++
    (ns.takeWhile (fun m => decide (m ≠ n))).filterMap (fun m => (t.claimOf l m g).map (·.number))

/-- Whether a claim stands elsewhere than in the places of a link on a group in a set of slots. -/
def Claim.offSlots (l : Link) (ns : List SlotNo) (g : Group) (c : Claim) : Bool :=
  ns.all fun n => c.off l n g

section
variable {f : SlotNo → State → State → List (Link × SlotNo) → Prop} {l : Link} {g : Group} {ns : List SlotNo} {s t : State}
  {lost : List (Link × SlotNo)}

theorem Passage.frame (h : Passage f ns s t lost) (taken : ∀ {n u v a}, f n u v a → SlotTaken l g n u v a) :
    t = { s with slots := t.slots, claims := t.claims, stampCount := t.stampCount, expiryList := t.expiryList } := by
  induction h with
  | nil => rfl
  | cons one _ ih => exact ih.trans (by rw [(taken one).frame])

theorem Passage.others (h : Passage f ns s t lost) (taken : ∀ {n u v a}, f n u v a → SlotTaken l g n u v a) :
    t.claims.filter (Claim.offSlots l ns g) = s.claims.filter (Claim.offSlots l ns g) := by
  induction h with
  | nil => rfl
  | @cons n ns s u t a b one _ ih =>
    have split : ∀ cs : List Claim, cs.filter (Claim.offSlots l (n :: ns) g) =
        (cs.filter (Claim.off l n g)).filter (Claim.offSlots l ns g) := fun cs => by
      rw [List.filter_filter]
      exact List.filter_congr fun c _ => by rw [Bool.and_comm]; rfl
    have swap : ∀ cs : List Claim, cs.filter (Claim.offSlots l (n :: ns) g) =
        (cs.filter (Claim.offSlots l ns g)).filter (Claim.off l n g) := fun cs => by
      rw [List.filter_filter]; rfl
    rw [swap t.claims, ih, ← swap, split u.claims, (taken one).others, ← split]

theorem Passage.slot_same (h : Passage f ns s t lost) (taken : ∀ {n u v a}, f n u v a → SlotTaken l g n u v a)
    {m : SlotNo} (out : m ∉ ns) : SlotSame m s t := by
  induction h with
  | nil => exact .refl m _
  | cons one _ ih =>
    obtain ⟨ne, out⟩ := not_or.mp (mt List.mem_cons.mpr out)
    exact ((taken one).same ne).trans (ih out)

theorem Passage.stamps (h : Passage f ns s t lost) (taken : ∀ {n u v a}, f n u v a → SlotTaken l g n u v a) :
    s.stampCount ≤ t.stampCount := by
  induction h with
  | nil => exact le_rfl
  | cons one _ ih => exact (taken one).stamps.trans ih

theorem Passage.core (h : Passage f ns s t lost) (taken : ∀ {n u v a}, f n u v a → SlotTaken l g n u v a)
    (core : s.PoolCore) : t.PoolCore := by
  induction h with
  | nil => exact core
  | cons one _ ih => exact ih (taken one).after

/-- Every slot keeps all that it holds but its crossfade records and CHANGED. -/
theorem Passage.slot (h : Passage f ns s t lost) (taken : ∀ {n u v a}, f n u v a → SlotTaken l g n u v a) (m : SlotNo) :
    t.slot m = { s.slot m with
      fades := (t.slot m).fades, flags := { (s.slot m).flags with changed := (t.slot m).flags.changed } } := by
  induction h with
  | nil => rfl
  | @cons n ns s u t a b one _ ih =>
    refine ih.trans ?_
    by_cases e : m = n
    · subst e; rw [(taken one).slot]
    · rw [(taken one).slots m e]

/-- What each slot finds and what is left of it. -/
theorem Passage.at (h : Passage f ns s t lost) (taken : ∀ {n u v a}, f n u v a → SlotTaken l g n u v a)
    (nodup : ns.Nodup) {n : SlotNo} (mem : n ∈ ns) :
    ∃ u v a, Reached l g ns n s t u ∧ f n u v a ∧ SlotSame n v t := by
  induction h with
  | nil => cases mem
  | @cons n0 ns s u t a b one rest ih =>
    obtain ⟨fresh, nodup⟩ := List.nodup_cons.mp nodup
    have tail := rest.slot_same taken fresh
    by_cases e : n = n0
    · subst e
      exact ⟨s, u, a, ⟨rfl, .refl _ _, le_rfl, fun j => by simp⟩, one, tail⟩
    · have hn := (List.mem_cons.mp mem).resolve_left e
      obtain ⟨u', v', a', reached, here, after⟩ := ih nodup hn
      refine ⟨u', v', a', ⟨?_, ((taken one).same e).trans reached.same, (taken one).stamps.trans reached.stamps,
        fun j => ?_⟩, here, after⟩
      · exact reached.frame.trans (by rw [(taken one).frame])
      · obtain ⟨d, found, numbers⟩ := (taken one).claim
        rw [reached.numbers, List.mem_append, numbers, List.takeWhile_cons_of_pos (by simpa using Ne.symm e),
          List.filterMap_cons, tail.claims, found]
        simp only [Option.map_some, List.mem_append, List.mem_cons]
        tauto

/-- R71: the groups lost are those that each slot lost. -/
theorem Passage.lost_eq (h : Passage f ns s t lost) (taken : ∀ {n u v a}, f n u v a → SlotTaken l g n u v a)
    (nodup : ns.Nodup) : lost = ns.flatMap (lostAt s t l g) := by
  induction h with
  | nil => rfl
  | @cons n ns s u t a b one rest ih =>
    obtain ⟨fresh, nodup⟩ := List.nodup_cons.mp nodup
    rw [List.flatMap_cons, ih nodup, (taken one).lost]
    congr 1
    · unfold lostAt; rw [(rest.slot_same taken fresh).owner]
    · refine List.flatMap_congr fun m hm => ?_
      unfold lostAt; rw [((taken one).same fun e => fresh (e ▸ hm)).owner]

end

end Sys2Proof.Machine
end

section
/-! PROOF. SEIZE (O17; R56, R57, R60 to R62, R64, R71, R90). -/

namespace Sys2Proof.Machine

/-! ### The link's claim found or created -/

/-- The state `w` comes from `u` by putting the claim `d` in the place of a link on a slot group: it stands there under the
number of the claim that stood there, or under a new one, and every other claim is as it was. -/
structure ClaimPut (l : Link) (g : Group) (n : SlotNo) (u w : State) (d : Claim) : Prop where
  before : u.PoolCore
  core : w.PoolCore
  found : w.claimOf l n g = some d
  others : w.claims.filter (Claim.off l n g) = u.claims.filter (Claim.off l n g)
  numbers : ∀ j, j ∈ w.claims.map (·.number) ↔ j ∈ u.claims.map (·.number) ∨ j = d.number
  count : w.claims.length = u.claims.length + if (u.claimOf l n g).isNone then 1 else 0
  same_number : ∀ b ∈ u.claims, b.number = d.number ↔ b.place = (l, n, g)

section
variable {l : Link} {g : Group} {n : SlotNo} {u w : State} {c d : Claim}

theorem ClaimPut.mem (h : ClaimPut l g n u w d) : d ∈ w.claims ∧ d.place = (l, n, g) := h.core.claimOf_iff.mp h.found

/-- A claim of the place rewritten. -/
theorem ClaimPut.of_rewritten (core : u.PoolCore) (found : u.claimOf l n g = some c) (number : d.number = c.number)
    (place : d.place = c.place) (claims : w.claims = rewritten d u.claims) (after : w.PoolCore) :
    ClaimPut l g n u w d := by
  obtain ⟨mem, at_⟩ := core.claimOf_iff.mp found
  refine ⟨core, after, after.claimOf_iff.mpr ⟨?_, place.trans at_⟩, ?_, fun j => ?_, ?_, fun b hb => ?_⟩
  · rw [claims, mem_rewritten core.numbers_differ mem number]; exact .inl rfl
  · rw [claims]
    exact filter_rewritten core.numbers_differ mem number (Claim.off_eq_false.mpr at_)
      (Claim.off_eq_false.mpr (place.trans at_))
  · rw [claims, rewritten_numbers]
    refine ⟨.inl, Or.rec id fun e => ?_⟩
    rw [e, number]
    exact List.mem_map_of_mem mem
  · rw [claims, found]; simp [rewritten]
  · rw [number]
    exact ⟨fun e => core.number_inj hb mem e ▸ at_,
      fun e => congrArg Claim.number (List.inj_on_of_nodup_map core.places_differ hb mem (e.trans at_.symm))⟩

/-- A claim created in a place where the link held none. -/
theorem ClaimPut.of_created (core : u.PoolCore) (unclaimed : u.claimOf l n g = none) (room : u.claims.length < 1024)
    (rest : Value) : ClaimPut l g n u (u.createClaim l n g rest) (u.newClaim l n g rest) := by
  have after := core.createClaim rest unclaimed room
  obtain ⟨fresh, -, -⟩ := u.newClaim_number l n g rest
  refine ⟨core, after, after.claimOf_iff.mpr ⟨?_, rfl⟩, filter_insertByNumber (c := u.newClaim l n g rest) (Claim.off_eq_false.mpr rfl) _,
    fun j => ?_, ?_, fun b hb => ?_⟩
  · exact mem_insertByNumber.mpr (.inl rfl)
  · rw [State.createClaim_eq, ((insertByNumber_perm _ _).map _).mem_iff, List.map_cons, List.mem_cons, or_comm]
  · rw [State.createClaim_eq, (insertByNumber_perm _ _).length_eq, unclaimed]; rfl
  · refine iff_of_false (fun e => fresh (e ▸ List.mem_map_of_mem hb)) fun e => ?_
    rw [core.claimOf_iff.mpr ⟨hb, e⟩] at unclaimed
    cases unclaimed

/-- A claim put in its place and then rewritten there. -/
theorem ClaimPut.rewrite {x : State} {e : Claim} (h : ClaimPut l g n u w d) (number : e.number = d.number)
    (place : e.place = d.place) (claims : x.claims = rewritten e w.claims) (after : x.PoolCore) :
    ClaimPut l g n u x e := by
  have next := ClaimPut.of_rewritten h.core h.found number place claims after
  refine ⟨h.before, after, next.found, next.others.trans h.others, fun j => ?_, ?_, fun b hb => ?_⟩
  · rw [next.numbers, h.numbers, number]; tauto
  · rw [next.count, h.count, h.found]; rfl
  · rw [number]; exact h.same_number b hb

/-- The claims, the entries and the stamps are all that a claim put in its place is of. -/
theorem ClaimPut.congr {x : State} (h : ClaimPut l g n u w d) (claims : x.claims = w.claims)
    (entries : x.expiryList = w.expiryList) (stamps : x.stampCount = w.stampCount) : ClaimPut l g n u x d where
  before := h.before
  core := h.core.congr claims entries stamps
  found := (State.claimOf_congr claims l n g).trans h.found
  others := by rw [claims]; exact h.others
  numbers := by rw [claims]; exact h.numbers
  count := by rw [claims]; exact h.count
  same_number := h.same_number

theorem ClaimPut.congr_before {x : State} (h : ClaimPut l g n x w d) (claims : x.claims = u.claims)
    (entries : x.expiryList = u.expiryList) (stamps : x.stampCount = u.stampCount) : ClaimPut l g n u w d where
  before := h.before.congr claims.symm entries.symm stamps.symm
  core := h.core
  found := h.found
  others := by rw [← claims]; exact h.others
  numbers := by rw [← claims]; exact h.numbers
  count := by rw [← claims, ← State.claimOf_congr claims]; exact h.count
  same_number := by rw [← claims]; exact h.same_number

/-- R58: the link owns the group exactly when the claim put there does. -/
theorem ClaimPut.owner_link (h : ClaimPut l g n u w d) :
    (w.owner n g).map (·.link) = some l ↔ w.ownerNumber n g = some d.number := by
  obtain ⟨mem, place⟩ := h.mem
  unfold State.ownerNumber
  cases owner : w.owner n g with
  | none => simp
  | some e =>
    obtain ⟨he, slot, group, -⟩ := State.owner_mem owner
    simp only [Option.map_some, Option.some.injEq]
    constructor
    · intro link
      have : e.place = (l, n, g) := by unfold Claim.place; rw [link, slot, group]
      rw [List.inj_on_of_nodup_map h.core.places_differ he mem (this.trans place.symm)]
    · intro number
      rw [h.core.number_inj he mem number]
      exact congrArg (fun x : Link × SlotNo × Group => x.1) place

/-- The owner before is another claim than the one put there exactly when it is another link's. -/
theorem ClaimPut.before_link (h : ClaimPut l g n u w d) {b : Claim} (owner : u.owner n g = some b) :
    b.number = d.number ↔ b.link = l := by
  obtain ⟨mem, slot, group, -⟩ := State.owner_mem owner
  rw [h.same_number b mem]
  unfold Claim.place
  simp [slot, group]

end

/-! ### What becomes of the owner (R61) -/

section
variable (s : State) (n : SlotNo) (g : Group) (k : Nat) (before : Option Claim) (seize : Bool)

/-- Whether claim `k` owns the group, and did not before. -/
def State.takes : Bool := decide (s.ownerNumber n g = some k) && decide (before.map (·.number) ≠ some k)

/-- R61, R62: a taking ends the group's crossfade record and sets CHANGED; a SEIZE of its own group ends the record. -/
theorem State.settleOwner_eq : (s.settleOwner n g k before seize).1 =
    s.setSlot n { s.slot n with
      fades := if s.takes n g k before || (seize && decide (s.ownerNumber n g = some k)) then (s.slot n).fades.set g none
        else (s.slot n).fades
      flags := { (s.slot n).flags with changed := (s.slot n).flags.changed || s.takes n g k before } } := by
  unfold State.settleOwner State.takes
  by_cases owner : s.ownerNumber n g = some k
  · rw [if_pos owner]
    by_cases same : before.map (·.number) = some k
    · rw [if_pos same]
      cases seize
      · simp only [owner, same, ne_eq, not_true_eq_false, decide_false, Bool.and_false, Bool.or_false, Bool.false_and, Bool.false_eq_true, if_false]
        exact (s.setSlot_slot_back n).symm
      · simp [owner, same, State.setFade]
    · rw [if_neg same]
      simp [owner, same, State.setChanged, State.setFade]
  · rw [if_neg owner]
    simp only [owner, decide_false, Bool.and_false, Bool.or_false, Bool.false_and, Bool.false_eq_true, if_false]
    exact (s.setSlot_slot_back n).symm

theorem State.settleOwner_lost : (s.settleOwner n g k before seize).2 =
    if s.takes n g k before then (before.map (fun c => (c.link, n))).toList else [] := by
  unfold State.settleOwner State.takes
  by_cases owner : s.ownerNumber n g = some k
  · rw [if_pos owner]
    by_cases same : before.map (·.number) = some k
    · rw [if_pos same]; simp [owner, same]
    · rw [if_neg same]; simp [owner, same]
  · rw [if_neg owner]; simp [owner]

end

/-- R71: the group lost at a slot, as the statements name it. -/
theorem ClaimPut.settleOwner_lost {l : Link} {g : Group} {n : SlotNo} {u w : State} {d : Claim}
    (h : ClaimPut l g n u w d) (seize : Bool) :
    (w.settleOwner n g d.number (u.owner n g) seize).2 = lostAt u w l g n := by
  rw [State.settleOwner_lost]
  unfold lostAt State.takes
  cases owner : u.owner n g with
  | none => simp
  | some b =>
    have link := h.before_link owner
    simp only [Option.map_some, Option.toList_some, ne_eq, Option.some.injEq, link, h.owner_link, Bool.and_eq_true,
      decide_eq_true_eq]
    by_cases one : b.link = l <;> by_cases two : w.ownerNumber n g = some d.number <;> simp [one, two]

/-! ### One slot of a SEIZE (R62) -/

/-- What a SEIZE makes of a slot before it tells who owns the group (R62, R90): the claim `d` is put in its place, at rest;
the entries that pass `keep` stay, and the stamp is the latest. -/
structure SeizeMade (l : Link) (g : Group) (n : SlotNo) (s w : State) (d : Claim) (keep : ExpiryEntry → Bool) : Prop where
  put : ClaimPut l g n s w d
  frame : w = { s.evaluated n g with
    claims := w.claims, stampCount := s.stampCount + 1, expiryList := s.expiryList.filter keep }
  records : w.stepRecords.Subperm s.stepRecords
  settled : s.Settled → w.Settled
  timed : s.Timed → w.Timed

section
variable (s : State) (l : Link) (g : Group) (n : SlotNo)

/-- R62: the claim found, rebased to the group's present value. -/
def State.rebasedClaim (c : Claim) : Claim :=
  { c with running := none, queue := [], rest := s.present n g, taken := s.now, takenOrder := s.stampCount }

/-- R62: the state with the claim found rebased to the group's present value. -/
def State.rebased (c : Claim) : State :=
  (((s.evaluated n g).returnSteps c.number).mapClaim c.number (fun c => { c with rest := s.present n g })).stampTaken c.number

/-- R62: the link's claim as a SEIZE leaves it: created at the group's present value, or rebased to it. -/
def State.seizedClaim : Claim :=
  match s.claimOf l n g with
  | none => s.newClaim l n g (s.present n g)
  | some c => s.rebasedClaim g n c

/-- R62: the state with the link's claim created or rebased. -/
def State.seizeFound : State :=
  match s.claimOf l n g with
  | none => (s.evaluated n g).createClaim l n g (s.present n g)
  | some c => s.rebased g n c

/-- Whether an entry is not of the link's claim on the slot group. -/
def State.notOf (e : ExpiryEntry) : Bool := decide ((s.claimOf l n g).map (·.number) ≠ some e.claim)

variable {s l g n} {c d : Claim}

theorem State.seizeSlot_of_found (found : (s.seizeFound l g n).claimOf l n g = some d) :
    s.seizeSlot l g n = (s.seizeFound l g n).settleOwner n g d.number (s.owner n g) true := by
  have unfolded : s.seizeSlot l g n = (match (s.seizeFound l g n).claimOf l n g with
      | none => (s.seizeFound l g n, [])
      | some c => (s.seizeFound l g n).settleOwner n g c.number (s.owner n g) true) := rfl
  rw [unfolded, found]

/-- R62: a claim of the present value where the link held none. -/
theorem State.seize_creates (core : s.PoolCore) (found : s.claimOf l n g = none) (room : s.claims.length < 1024) :
    SeizeMade l g n s ((s.evaluated n g).createClaim l n g (s.present n g)) (s.newClaim l n g (s.present n g))
      (fun _ => true) := by
  have perm := insertByNumber_perm (s.newClaim l n g (s.present n g)) s.claims
  have members : ∀ x ∈ ((s.evaluated n g).createClaim l n g (s.present n g)).claims,
      x = s.newClaim l n g (s.present n g) ∨ x ∈ s.claims := fun x hx => List.mem_cons.mp (perm.mem_iff.mp hx)
  refine ⟨?_, ?_, ?_, fun settled x hx => ?_, fun timed => ⟨fun x hx => ?_, timed.near, timed.order, fun x hx => ?_⟩⟩
  · exact (ClaimPut.of_created (l := l) (n := n) (g := g) (core.congr (t := s.evaluated n g) rfl rfl rfl)
      found room (s.present n g)).congr_before rfl rfl rfl
  · rw [List.filter_true]; rfl
  · exact (perm.flatMap_right Claim.records).subperm
  · rcases members x hx with rfl | hx
    · exact fun r run => nomatch run
    · exact settled x hx
  · rcases members x hx with rfl | hx
    · exact fun y hy => nomatch hy
    · exact timed.times x hx
  · rcases members x hx with rfl | hx
    · exact fun r run => nomatch run
    · exact timed.instant_due x hx

theorem State.rebased_claims (core : s.PoolCore) (mem : c ∈ s.claims) :
    (s.rebased g n c).claims = rewritten (s.rebasedClaim g n c) s.claims := by
  have one := State.mapClaim_rewritten (s := s.evaluated n g) (c := c)
    (change := fun c => { c with running := none, queue := [] }) core.numbers_differ mem rfl
  have two := State.mapClaim_of_rewritten (u := (s.evaluated n g).returnSteps c.number) (c := c)
    (d := { c with running := none, queue := [] }) core.numbers_differ
    mem rfl one (change := fun c => { c with rest := s.present n g }) rfl
  exact State.mapClaim_of_rewritten (d := { c with running := none, queue := [], rest := s.present n g })
    core.numbers_differ mem rfl two
    (change := fun c => { c with taken := s.now, takenOrder := s.stampCount }) rfl

theorem State.rebased_frame (c : Claim) : s.rebased g n c = { s.evaluated n g with
    claims := (s.rebased g n c).claims, stampCount := s.stampCount + 1
    expiryList := s.expiryList.filter (fun e => decide (e.claim ≠ c.number)) } := rfl

/-- R62, R90: the claim found, rebased to the present value, and its steps returned. -/
theorem State.seize_rebases (core : s.PoolCore) (found : s.claimOf l n g = some c) :
    SeizeMade l g n s (s.rebased g n c) (s.rebasedClaim g n c) (fun e => decide (e.claim ≠ c.number)) := by
  obtain ⟨mem, -⟩ := core.claimOf_iff.mp found
  have claims := s.rebased_claims (n := n) (g := g) core mem
  have number : (s.rebasedClaim g n c).number = c.number := rfl
  have entries : (s.rebased g n c).expiryList =
      reentered (s.rebasedClaim g n c).number (s.rebasedClaim g n c).running s.expiryList := rfl
  have pool := core.in_pool c mem
  have in_pool : (s.rebasedClaim g n c).InPool (s.rebased g n c).stampCount :=
    ⟨pool.number_fits, Nat.zero_le _, pool.low_fits, Nat.lt_succ_self _, fun _ => rfl⟩
  have after : (s.rebased g n c).PoolCore :=
    core.rewrite mem number rfl claims (.inl entries) (Nat.le_succ _) (.inr le_rfl) in_pool
  refine ⟨.of_rewritten core found number rfl claims after, State.rebased_frame c,
    core.rewrite_subperm mem number claims List.nil_subperm, fun settled x hx => ?_, fun timed => ?_⟩
  · rw [claims, mem_rewritten core.numbers_differ mem number] at hx
    rcases hx with rfl | ⟨hx, -⟩
    · exact fun r run => nomatch run
    · exact settled x hx
  · have now : (s.rebased g n c).now = s.now := by rw [State.rebased_frame]; rfl
    refine timed.rewrite core mem number claims (.inl entries) now (fun x hx => ?_) (.inr fun r run => nomatch run)
    exact nomatch (hx : x ∈ ([] : List Step))

/-- R62, R90: the link's claim is put in its place, at rest; its entry goes, and its stamp is the latest. -/
theorem State.seizeFound_made (core : s.PoolCore) (room : s.claimOf l n g = none → s.claims.length < 1024) :
    SeizeMade l g n s (s.seizeFound l g n) (s.seizedClaim l g n) (s.notOf l g n) := by
  unfold State.seizeFound State.seizedClaim
  cases found : s.claimOf l n g with
  | none =>
    have all : s.notOf l g n = fun _ => true := by funext e; simp [State.notOf, found]
    rw [all]
    exact State.seize_creates core found (room found)
  | some c =>
    have others : s.notOf l g n = fun e => decide (e.claim ≠ c.number) := by
      funext e; simp [State.notOf, found, eq_comm]
    rw [others]
    exact State.seize_rebases core found

end

end Sys2Proof.Machine
end

section
/-! PROOF. SEIZE (O17): its slots one after another (R62, R64), the notices (R71) and the answer. -/

namespace Sys2Proof.Machine

/-- One slot of a SEIZE (R61, R62, R90): the link's claim is the claim seized, the crossfade record goes where it owns the
group and is evaluated where it does not, and CHANGED is set where it did not own the group before. -/
structure SlotSeized (l : Link) (g : Group) (n : SlotNo) (u v : State) (lost : List (Link × SlotNo)) : Prop where
  taken : SlotTaken l g n u v lost
  claim : v.claimOf l n g = some (u.seizedClaim l g n)
  slot : v.slot n = { u.slot n with
    fades := (u.slot n).fades.set g
      (if v.ownerNumber n g = some (u.seizedClaim l g n).number then none else u.runningFade n g)
    flags := { (u.slot n).flags with changed := (u.slot n).flags.changed ||
      (decide (v.ownerNumber n g = some (u.seizedClaim l g n).number) &&
        decide (u.ownerNumber n g ≠ some (u.seizedClaim l g n).number)) } }
  entries : v.expiryList = u.expiryList.filter (u.notOf l g n)
  records : v.stepRecords.Subperm u.stepRecords
  settled : u.Settled → v.Settled
  timed : u.Timed → v.Timed

section
variable {l : Link} {g : Group} {n : SlotNo} {s u v w : State} {d : Claim} {keep : ExpiryEntry → Bool}

theorem PerGroup.set_set {α : Type} (x : PerGroup α) (g : Group) (a b : α) : (x.set g a).set g b = x.set g b := by
  cases g <;> rfl

theorem SeizeMade.slot (made : SeizeMade l g n s w d keep) (m : SlotNo) :
    w.slot m = if m = n then { s.slot n with fades := (s.slot n).fades.set g (s.runningFade n g) } else s.slot m := by
  rw [made.frame, ← State.evaluated_slot]
  rfl

/-- R61: the owner of the group settled, the slot is served. -/
theorem SeizeMade.served (made : SeizeMade l g n s w d keep) (x : Slot)
    (hx : x = { w.slot n with
      fades := if w.ownerNumber n g = some d.number then (w.slot n).fades.set g none else (w.slot n).fades
      flags := { (w.slot n).flags with changed := (w.slot n).flags.changed || w.takes n g d.number (s.owner n g) } }) :
    SlotTaken l g n s (w.setSlot n x) (lostAt s w l g n) ∧
    (w.setSlot n x).slot n = { s.slot n with
      fades := (s.slot n).fades.set g (if w.ownerNumber n g = some d.number then none else s.runningFade n g)
      flags := { (s.slot n).flags with changed := (s.slot n).flags.changed ||
        (decide (w.ownerNumber n g = some d.number) && decide (s.ownerNumber n g ≠ some d.number)) } } := by
  have claims : (w.setSlot n x).claims = w.claims := rfl
  have owner : ∀ m h, (w.setSlot n x).owner m h = w.owner m h := State.owner_congr rfl
  have here : (w.setSlot n x).slot n = { s.slot n with
      fades := (s.slot n).fades.set g (if w.ownerNumber n g = some d.number then none else s.runningFade n g)
      flags := { (s.slot n).flags with changed := (s.slot n).flags.changed ||
        (decide (w.ownerNumber n g = some d.number) && decide (s.ownerNumber n g ≠ some d.number)) } } := by
    rw [State.setSlot_slot_self, hx, made.slot, if_pos rfl]
    unfold State.takes State.ownerNumber
    split <;> simp [PerGroup.set_set]
  have put : ClaimPut l g n s (w.setSlot n x) d := made.put.congr rfl rfl rfl
  refine ⟨⟨?_, put.others, fun m ne => ?_, ?_, ?_, put.before, put.core, ⟨d, put.found, put.numbers⟩, put.count, ?_⟩, here⟩
  · rw [made.frame]; rfl
  · rw [State.setSlot_slot_ne _ _ ne, made.slot, if_neg ne]
  · rw [here]
  · have stamps : (w.setSlot n x).stampCount = s.stampCount + 1 := congrArg State.stampCount made.frame
    omega
  · unfold lostAt; rw [owner]

end

section
variable {l : Link} {g : Group} {n : SlotNo} {s : State}

/-- R62: a SEIZE serves a slot. -/
theorem State.seizeSlot_seized (core : s.PoolCore) (room : s.claimOf l n g = none → s.claims.length < 1024) :
    SlotSeized l g n s (s.seizeSlot l g n).1 (s.seizeSlot l g n).2 := by
  have made := State.seizeFound_made core room
  have lost := made.put.settleOwner_lost true
  have served := made.served _ rfl
  rw [State.seizeSlot_of_found made.put.found, lost]
  generalize s.seizeFound l g n = w at made served
  have state : (w.settleOwner n g (s.seizedClaim l g n).number (s.owner n g) true).1 = w.setSlot n { w.slot n with
      fades := if w.ownerNumber n g = some (s.seizedClaim l g n).number then (w.slot n).fades.set g none
        else (w.slot n).fades
      flags := { (w.slot n).flags with
        changed := (w.slot n).flags.changed || w.takes n g (s.seizedClaim l g n).number (s.owner n g) } } := by
    rw [State.settleOwner_eq]
    unfold State.takes
    by_cases owner : w.ownerNumber n g = some (s.seizedClaim l g n).number <;> simp [owner]
  rw [state]
  generalize ({ w.slot n with
      fades := _
      flags := _ } : Slot) = x at served
  obtain ⟨taken, here⟩ := served
  have same : (w.setSlot n x).ownerNumber n g = w.ownerNumber n g :=
    State.ownerNumber_of_owner (State.owner_congr rfl n g)
  refine ⟨taken, (State.claimOf_congr rfl l n g).trans made.put.found, ?_, ?_, made.records, made.settled,
    fun timed => (made.timed timed).congr rfl rfl rfl⟩
  · rw [here, same]
  · exact congrArg State.expiryList made.frame

theorem State.seizeSlots_cons (s : State) (l : Link) (g : Group) (n : SlotNo) (ns : List SlotNo) :
    s.seizeSlots l g (n :: ns) = (((s.seizeSlot l g n).1.seizeSlots l g ns).1,
      (s.seizeSlot l g n).2 ++ ((s.seizeSlot l g n).1.seizeSlots l g ns).2) := by
  have front : ∀ (ns : List SlotNo) (u : State) (a b : List (Link × SlotNo)),
      ns.foldl (fun acc n => ((acc.1.seizeSlot l g n).1, acc.2 ++ (acc.1.seizeSlot l g n).2)) (u, a ++ b) =
        ((ns.foldl (fun acc n => ((acc.1.seizeSlot l g n).1, acc.2 ++ (acc.1.seizeSlot l g n).2)) (u, b)).1,
          a ++ (ns.foldl (fun acc n => ((acc.1.seizeSlot l g n).1, acc.2 ++ (acc.1.seizeSlot l g n).2)) (u, b)).2) := by
    intro ns
    induction ns with
    | nil => intro u a b; rfl
    | cons m ms ih =>
      intro u a b
      simp only [List.foldl_cons, List.append_assoc]
      rw [ih]
  have first := front ns (s.seizeSlot l g n).1 (s.seizeSlot l g n).2 []
  rw [List.append_nil] at first
  exact first

/-- R62, R64: the slots of a SEIZE that the pool covers are served one after another. -/
theorem State.seizeSlots_passage {ns : List SlotNo} (core : s.PoolCore) (room : s.HasRoom l g ns) (nodup : ns.Nodup) :
    Passage (SlotSeized l g) ns s (s.seizeSlots l g ns).1 (s.seizeSlots l g ns).2 := by
  induction ns generalizing s with
  | nil => exact .nil s
  | cons n ns ih =>
    obtain ⟨fresh, nodup⟩ := List.nodup_cons.mp nodup
    have one := State.seizeSlot_seized core room.one
    rw [State.seizeSlots_cons]
    exact .cons one (ih one.taken.after (one.taken.room fresh room) nodup)

end

/-! ### What the slots leave alone -/

section
variable {f : SlotNo → State → State → List (Link × SlotNo) → Prop} {l : Link} {g : Group} {ns : List SlotNo} {s t : State}
  {lost : List (Link × SlotNo)}

theorem Passage.fixtures (h : Passage f ns s t lost) (taken : ∀ {n u v a}, f n u v a → SlotTaken l g n u v a) :
    FixturesKept s t := fun n => by
  rw [h.slot taken n]
  exact ⟨rfl, rfl, rfl, rfl⟩

/-- The claims elsewhere stay. -/
theorem Passage.claims_off (h : Passage f ns s t lost) (taken : ∀ {n u v a}, f n u v a → SlotTaken l g n u v a)
    {k : Link} {n : SlotNo} {i : Group} (other : ¬(k = l ∧ n ∈ ns ∧ i = g)) : t.claimOf k n i = s.claimOf k n i := by
  refine State.claimOf_of_filter (h.others taken) fun c place => ?_
  refine List.all_eq_true.mpr fun m hm => decide_eq_true fun e => other ?_
  have same := place.symm.trans e
  simp only [Prod.mk.injEq] at same
  obtain ⟨link, slot, group⟩ := same
  exact ⟨link, slot ▸ hm, group⟩

end

/-! ### What a SEIZE leaves of each slot -/

section
variable {l : Link} {g : Group} {n : SlotNo} {u v : State} {lost : List (Link × SlotNo)}

/-- R61: a claim put on a group that does not own it leaves the owner. -/
theorem SlotSeized.owner (h : SlotSeized l g n u v lost) : v.owner n g = some (u.seizedClaim l g n) ∨
    v.owner n g = u.owner n g ∧ v.ownerNumber n g ≠ some (u.seizedClaim l g n).number := by
  obtain ⟨mem, place⟩ := h.taken.after.claimOf_iff.mp h.claim
  by_cases own : v.ownerNumber n g = some (u.seizedClaim l g n).number
  · obtain ⟨e, owner, number⟩ := Option.map_eq_some_iff.mp own
    exact .inl (owner.trans (congrArg some (h.taken.after.number_inj (State.owner_mem owner).1 mem number)))
  · refine .inr ⟨?_, own⟩
    refine (h.taken.before.owner_stamped h.taken.after mem place h.taken.others ?_ fun c found => ?_).resolve_left
      fun owner => own (by unfold State.ownerNumber; rw [owner]; rfl)
    · unfold State.seizedClaim; split <;> exact le_rfl
    · unfold State.seizedClaim; rw [found]; rfl

/-- R62: the claim seized rests at the group's present value. -/
theorem State.seizedClaim_rests (s : State) (l : Link) (g : Group) (n : SlotNo) :
    (s.seizedClaim l g n).rest = s.present n g ∧ (s.seizedClaim l g n).running = none ∧
      (s.seizedClaim l g n).queue = [] ∧ (s.seizedClaim l g n).taken = s.now ∧
        (s.seizedClaim l g n).takenOrder = s.stampCount := by
  unfold State.seizedClaim; split <;> exact ⟨rfl, rfl, rfl, rfl, rfl⟩

/-- R62: no group's value jumps. -/
theorem SlotSeized.present (h : SlotSeized l g n u v lost) : v.present n g = u.present n g := by
  have now : v.now = u.now := by rw [h.taken.frame]; rfl
  obtain ⟨rest, rests, -⟩ := u.seizedClaim_rests l g n
  rcases h.owner with owner | ⟨owner, other⟩
  · have own : v.ownerNumber n g = some (u.seizedClaim l g n).number := by unfold State.ownerNumber; rw [owner]; rfl
    have fade : v.runningFade n g = none := by
      unfold State.runningFade State.fade
      rw [h.slot, if_pos own, PerGroup.set_get_self]
    unfold State.present State.beneath
    rw [fade, owner]
    dsimp only
    rw [Claim.ownValue, rests]
    exact rest
  · rw [← u.evaluated_present n n g g]
    refine State.present_congr now (owner.trans (State.owner_congr rfl n g)) ?_ ?_
    · rw [h.slot, State.evaluated_slot, if_pos rfl]
    · rw [h.slot, State.evaluated_slot, if_pos rfl, if_neg other]

end

section
variable {l : Link} {g : Group} {n : SlotNo} {ns : List SlotNo} {s t u : State}

/-- R55, R62: a claim that a slot's turn creates takes the lowest number free. -/
theorem Reached.takes_lowest (h : Reached l g ns n s t u) (rest : Value) :
    TakesLowestRecord s t l g ns n (u.newClaim l n g rest) := by
  obtain ⟨fresh, below, -⟩ := u.newClaim_number l n g rest
  exact ⟨fun used => fresh ((h.numbers _).mpr used), fun j lt => (h.numbers j).mp (below j lt)⟩

theorem Reached.now (h : Reached l g ns n s t u) : u.now = s.now := by rw [h.frame]; rfl

/-- R62: the claim that a slot's turn seizes. -/
theorem Reached.seizedClaim (h : Reached l g ns n s t u) :
    match s.claimOf l n g with
    | none => TakesLowestRecord s t l g ns n (u.seizedClaim l g n) ∧ (u.seizedClaim l g n).role = s.pair.roleFor l ∧
        (u.seizedClaim l g n).mode = .oneShot ∧ (u.seizedClaim l g n).lowMark = 0 ∧ (u.seizedClaim l g n).armed = true
    | some d => (u.seizedClaim l g n).number = d.number ∧ (u.seizedClaim l g n).role = d.role ∧
        (u.seizedClaim l g n).mode = d.mode ∧ (u.seizedClaim l g n).lowMark = d.lowMark ∧
          (u.seizedClaim l g n).armed = d.armed := by
  have found := h.same.claims l g
  unfold State.seizedClaim
  rw [found]
  cases s.claimOf l n g with
  | none =>
    have pair : u.pair = s.pair := by rw [h.frame]
    refine ⟨h.takes_lowest _, ?_, rfl, rfl, rfl⟩
    show u.pair.roleFor l = s.pair.roleFor l
    rw [pair]
  | some d => exact ⟨rfl, rfl, rfl, rfl, rfl⟩

variable {lost : List (Link × SlotNo)}

/-- R57, R60 to R62: on each slot of a SEIZE the link holds a claim that rests at the group's present value. -/
theorem Passage.seized_at (h : Passage (SlotSeized l g) ns s t lost) (core : s.PoolCore) (nodup : ns.Nodup) (mem : n ∈ ns) :
    t.present n g = s.present n g ∧
      ∃ c, t.claimOf l n g = some c ∧ c.rest = s.present n g ∧ c.running = none ∧ c.queue = [] ∧ c.taken = s.now ∧
        (∀ d ∈ s.claims, d.takenOrder < c.takenOrder) ∧
        (match s.claimOf l n g with
          | none => TakesLowestRecord s t l g ns n c ∧ c.role = s.pair.roleFor l ∧ c.mode = .oneShot ∧
              c.lowMark = 0 ∧ c.armed = true
          | some d => c.number = d.number ∧ c.role = d.role ∧ c.mode = d.mode ∧ c.lowMark = d.lowMark ∧
              c.armed = d.armed) ∧
        t.slot n =
          { s.slot n with
            fades := (s.slot n).fades.set g (if t.ownerNumber n g = some c.number then none else s.runningFade n g)
            flags := { (s.slot n).flags with
              changed := (s.slot n).flags.changed ||
                (decide (t.ownerNumber n g = some c.number) && decide (s.ownerNumber n g ≠ some c.number)) } } := by
  obtain ⟨u, v, a, reached, seized, after⟩ := h.at SlotSeized.taken nodup mem
  have now := reached.now
  have nowV : v.now = u.now := by rw [seized.taken.frame]; rfl
  have nowT : t.now = s.now := by rw [h.frame SlotSeized.taken]; rfl
  have present := reached.same.present now g
  obtain ⟨rest, rests, empty, taken, order⟩ := u.seizedClaim_rests l g n
  refine ⟨?_, u.seizedClaim l g n, (after.claims l g).trans seized.claim, rest.trans present, rests, empty,
    taken.trans now, fun d hd => ?_, reached.seizedClaim, ?_⟩
  · rw [after.present (nowT.trans (nowV.trans now).symm), seized.present, present]
  · rw [order]
    exact ((core.in_pool d hd).order_past).trans_le reached.stamps
  · rw [after.slot, after.ownerNumber, seized.slot, reached.same.slot, reached.same.ownerNumber,
      reached.same.runningFade now]

/-- R62, R90: the entries of the claims seized are gone. -/
theorem Passage.seized_entries (h : Passage (SlotSeized l g) ns s t lost) (nodup : ns.Nodup) :
    t.expiryList = s.expiryList.filter (fun e => ns.all fun n => s.notOf l g n e) := by
  induction h with
  | nil => exact (List.filter_eq_self.mpr fun _ _ => rfl).symm
  | @cons n ns s u t a b one _ ih =>
    obtain ⟨fresh, nodup⟩ := List.nodup_cons.mp nodup
    rw [ih nodup, one.entries, List.filter_filter]
    refine List.filter_congr fun e _ => ?_
    have rest : ns.all (fun m => u.notOf l g m e) = ns.all (fun m => s.notOf l g m e) := by
      rw [Bool.eq_iff_iff, List.all_eq_true, List.all_eq_true]
      refine forall₂_congr fun m hm => ?_
      unfold State.notOf
      rw [(one.taken.same fun e => fresh (e ▸ hm)).claims]
    rw [rest, Bool.and_comm]
    rfl

end

/-! ### The whole SEIZE -/

section
variable {l : Link} {g : Group} {slots : List SlotNo} {s : State}

theorem State.hasRoom_iff (core : s.PoolCore) :
    s.HasRoom l g slots ↔ ¬ s.freeClaims < (s.unclaimed l g slots).length := by
  have fits := core.claims_fit
  have size : Config.claimRecords = 1024 := rfl
  unfold State.HasRoom State.freeClaims State.unclaimed
  omega

end

/-- Settles O17: the slots are served one after another; each serving puts the link's claim in its place and settles who
owns the group. -/
theorem seizeHoldsThePresentLook : Obligations.SeizeHoldsThePresentLook := by
  intro s l f set g slots p hand named
  have core := p.core
  have nodup := SlotSet.slots_nodup named
  have exec := exec_seize hand
  rw [State.withSlots_of_some named, State.takeSeize] at exec
  split <;> rename_i h
  · have short : s.freeClaims < (s.unclaimed l g slots).length := by
      rw [← not_not (a := _ < _), ← State.hasRoom_iff core]
      exact Nat.not_le.mpr h
    rw [if_pos short] at exec
    exact refused_of_exec exec rfl
  · have room : s.HasRoom l g slots := Nat.not_lt.mp h
    rw [if_neg ((State.hasRoom_iff core).mp room)] at exec
    dsimp only at exec
    have passage := State.seizeSlots_passage core room nodup
    have told := State.raiseDisplaced_lost (s := s) (t := (s.seizeSlots l g slots).1) (l := l) (g := g) nodup
    rw [← passage.lost_eq SlotSeized.taken nodup] at told
    have frame := ((s.seizeSlots l g slots).1.raiseDisplaced_hear l g (s.seizeSlots l g slots).2).2
    refine ⟨_, exec, ?_⟩
    generalize (s.seizeSlots l g slots).1.raiseDisplaced l g (s.seizeSlots l g slots).2 = u at told frame
    generalize (s.seizeSlots l g slots).1 = v at told frame passage
    have links : v.links = s.links := by rw [passage.frame SlotSeized.taken]
    obtain ⟨answered, kept, hears⟩ := ((Told.of_links links).trans told).answered l f .ok .none
    have same : u.answer l f .ok .none = { v with links := (u.answer l f .ok .none).links } :=
      congrArg (fun x : State => { x with links := (u.answer l f .ok .none).links }) frame
    refine ⟨answered, kept, fun n => ?_, fun k => ?_, ?_, fun n hn => ?_, ?_, fun k n h other => ?_, fun n => ?_, fun n out => ?_⟩
    · rw [same]
      exact passage.fixtures SlotSeized.taken n
    · have lost : lostBy s (u.answer l f .ok .none) l k g slots = lostBy s v l k g slots := by rw [same]; rfl
      rw [lost]
      exact hears k
    · rw [same, passage.frame SlotSeized.taken]
    · rw [same]
      exact passage.seized_at core nodup hn
    · rw [same]
      exact passage.seized_entries nodup
    · rw [same]
      exact passage.claims_off SlotSeized.taken other
    · rw [same]
      have parked : (v.slot n).parked = (s.slot n).parked := by rw [passage.slot SlotSeized.taken n]
      exact parked
    · rw [same]
      exact (passage.slot_same SlotSeized.taken out).slot

end Sys2Proof.Machine
end

section
/-! PROOF. One slot of a STEP (R63, R94 to R96): the link's claim found or created, and what its first step makes of it and
of the group's owner. -/

namespace Sys2Proof.Machine

/-! ### Claims of which no place, role or stamp changes -/

/-- What R57 ranks a claim by: its place, its role and the order of its stamp; and its number. -/
structure Claim.Ranks (c d : Claim) : Prop where
  number : d.number = c.number
  slot : d.slot = c.slot
  group : d.group = c.group
  link : d.link = c.link
  role : d.role = c.role
  takenOrder : d.takenOrder = c.takenOrder

theorem Claim.Same.ranks {c d : Claim} (h : c.Same d) : c.Ranks d :=
  ⟨h.number, h.slot, h.group, h.link, h.role, h.takenOrder⟩

section
variable {s t : State} {f : Claim → Claim}

/-- R57: the owner of a group is the same claim as before where no claim changes its place, its role or its stamp. -/
theorem State.PoolCore.owner_map (hs : s.PoolCore) (ht : t.PoolCore) (claims : t.claims = s.claims.map f)
    (same : ∀ c ∈ s.claims, c.Ranks (f c)) (n : SlotNo) (g : Group) : t.owner n g = (s.owner n g).map f := by
  have mem : ∀ {x}, x ∈ t.claims ↔ ∃ c ∈ s.claims, f c = x := fun {x} => by rw [claims, List.mem_map]
  cases owner : s.owner n g with
  | none =>
    rw [State.owner_eq_none] at owner
    refine State.owner_eq_none.mpr fun x hx slot group => ?_
    obtain ⟨c, hc, rfl⟩ := mem.mp hx
    have keep := same c hc
    rw [keep.role]
    exact owner c hc (keep.slot.symm.trans slot) (keep.group.symm.trans group)
  | some c =>
    obtain ⟨hc, slot, group, live, first⟩ := hs.owner_iff.mp owner
    have keep := same c hc
    refine ht.owner_iff.mpr ⟨mem.mpr ⟨c, hc, rfl⟩, keep.slot.trans slot, keep.group.trans group, keep.role.trans live,
      fun x hx slot group live => ?_⟩
    obtain ⟨d, hd, rfl⟩ := mem.mp hx
    have keep' := same d hd
    rw [keep.link, keep'.link, keep.takenOrder, keep'.takenOrder]
    exact first d hd (keep'.slot.symm.trans slot) (keep'.group.symm.trans group) (keep'.role.symm.trans live)

theorem State.PoolCore.ownerNumber_map (hs : s.PoolCore) (ht : t.PoolCore) (claims : t.claims = s.claims.map f)
    (same : ∀ c ∈ s.claims, c.Ranks (f c)) (n : SlotNo) (g : Group) : t.ownerNumber n g = s.ownerNumber n g := by
  unfold State.ownerNumber
  rw [hs.owner_map ht claims same]
  cases owner : s.owner n g with
  | none => rfl
  | some c => exact congrArg some (same c (State.owner_mem owner).1).number

theorem State.PoolCore.ownerLink_map (hs : s.PoolCore) (ht : t.PoolCore) (claims : t.claims = s.claims.map f)
    (same : ∀ c ∈ s.claims, c.Ranks (f c)) (n : SlotNo) (g : Group) :
    (t.owner n g).map (·.link) = (s.owner n g).map (·.link) := by
  rw [hs.owner_map ht claims same]
  cases owner : s.owner n g with
  | none => rfl
  | some c => exact congrArg some (same c (State.owner_mem owner).1).link

theorem rewritten_ranks {cs : List Claim} {c d : Claim} (numbers : (cs.map (·.number)).Nodup) (mem : c ∈ cs)
    (same : c.Ranks d) : ∀ x ∈ cs, x.Ranks (if x.number = d.number then d else x) := fun x hx => by
  split
  · rw [List.inj_on_of_nodup_map numbers hx mem (Eq.trans ‹_› same.number)]; exact same
  · exact ⟨rfl, rfl, rfl, rfl, rfl, rfl⟩

end

/-! ### A step starts on a claim (R95) -/

section
variable {z : State} {cs : List Claim} {c d : Claim}

/-- R94, R95: the claim when the step `x` starts on it from a value, the rest in its pending queue. -/
def Claim.started (d : Claim) (x : Step) (rest : List Step) (value : Value) (now : Reading) : Claim :=
  { d with queue := rest, running := some (x.runFrom value now false), armed := d.armed || decide (d.lowMark < rest.length) }

/-- R94, R95: the first step starts on a claim that an operation has rewritten. -/
def State.startOn (z : State) (k : Nat) (n : SlotNo) (x : Step) (rest : List Step) (value : Value) (now : Reading) : State :=
  (((z.returnSteps k).mapClaim k (fun c => { c with queue := rest })).startStep k n x value now false).arm k

/-- What a change of claims and entries leaves of a state. -/
theorem State.startStep_eq (u : State) (k : Nat) (n : SlotNo) (x : Step) (value : Value) (start : Reading) (dropIn : Bool) :
    u.startStep k n x value start dropIn = { u.setChanged n with
      claims := (u.startStep k n x value start dropIn).claims
      expiryList := insertEntry ⟨k, (x.runFrom value start dropIn).expiry⟩ u.expiryList } := rfl

theorem State.setChanged_frame (u : State) (claims : List Claim) (entries : List ExpiryEntry) (n : SlotNo) :
    ({ u with claims := claims, expiryList := entries } : State).setChanged n =
      { u.setChanged n with claims := claims, expiryList := entries } := rfl

theorem State.startOn_frame (z : State) (k : Nat) (n : SlotNo) (x : Step) (rest : List Step) (value : Value) (now : Reading) :
    z.startOn k n x rest value now = { z.setChanged n with
      claims := (z.startOn k n x rest value now).claims
      expiryList := reentered k (some (x.runFrom value now false)) z.expiryList } := by
  have queued : ∃ cs, (z.returnSteps k).mapClaim k (fun c => { c with queue := rest }) =
      { z with claims := cs, expiryList := z.expiryList.filter (fun e => decide (e.claim ≠ k)) } := ⟨_, rfl⟩
  obtain ⟨cs, queued⟩ := queued
  have armed : ∀ u : State, u.arm k = { u with claims := (u.arm k).claims } := fun _ => rfl
  unfold State.startOn
  rw [queued, armed, State.startStep_eq, State.setChanged_frame]
  rfl

section
variable {u : State} (numbers : (cs.map (·.number)).Nodup) (mem : c ∈ cs) (number : d.number = c.number)
  (claims : u.claims = rewritten d cs)
include numbers mem number claims

theorem State.returnSteps_rewritten :
    (u.returnSteps c.number).claims = rewritten { d with running := none, queue := [] } cs :=
  State.mapClaim_of_rewritten numbers mem number claims (change := fun c => { c with running := none, queue := [] }) rfl

theorem State.startStep_rewritten (n : SlotNo) (x : Step) (value : Value) (start : Reading) (dropIn : Bool) :
    (u.startStep c.number n x value start dropIn).claims =
      rewritten { d with running := some (x.runFrom value start dropIn) } cs :=
  State.mapClaim_of_rewritten numbers mem number claims
    (change := fun c => { c with running := some (x.runFrom value start dropIn) }) rfl

theorem State.arm_rewritten :
    (u.arm c.number).claims = rewritten { d with armed := d.armed || decide (d.lowMark < d.queue.length) } cs :=
  State.mapClaim_of_rewritten numbers mem number claims
    (change := fun c => { c with armed := c.armed || decide (c.lowMark < c.queue.length) }) rfl

theorem State.stampTaken_rewritten :
    (u.stampTaken c.number).claims = rewritten { d with taken := u.now, takenOrder := u.stampCount } cs :=
  State.mapClaim_of_rewritten numbers mem number claims
    (change := fun c => { c with taken := u.now, takenOrder := u.stampCount }) rfl

theorem State.startOn_claims (n : SlotNo) (x : Step) (rest : List Step) (value : Value) (now : Reading) :
    (u.startOn c.number n x rest value now).claims = rewritten (d.started x rest value now) cs := by
  have returned := State.returnSteps_rewritten numbers mem number claims
  have queued := State.mapClaim_of_rewritten (u := u.returnSteps c.number) (d := { d with running := none, queue := [] })
    numbers mem number returned (change := fun c => { c with queue := rest }) rfl
  have started := State.startStep_rewritten (d := { d with running := none, queue := rest }) numbers mem number queued n x
    value now false
  exact State.arm_rewritten (d := { d with running := some (x.runFrom value now false), queue := rest }) numbers mem number
    started

end

end

/-! ### The claim that a STEP finds or creates (R94) -/

/-- R94: what a STEP makes of a slot to find a claim of its link there. -/
structure StepMade (l : Link) (g : Group) (n : SlotNo) (s w : State) (d : Claim) : Prop where
  put : ClaimPut l g n s w d
  frame : w = { s with slots := w.slots, claims := w.claims, stampCount := w.stampCount }
  slot : ∀ m, w.slot m = if m = n ∧ s.claimOf l n g = none then
    { s.slot n with fades := (s.slot n).fades.set g (s.runningFade n g) } else s.slot m
  stamps : s.stampCount ≤ w.stampCount
  timed : s.Timed → w.Timed

/-- R94: the link's claim before its steps: the one found, or one at the group's present value. -/
def State.stepBase (s : State) (l : Link) (g : Group) (n : SlotNo) : Claim :=
  match s.claimOf l n g with
  | none => s.newClaim l n g (s.present n g)
  | some c => c

section
variable {s : State} {q : StepRequest} {n : SlotNo}

theorem State.stepFound_made (core : s.PoolCore)
    (room : s.claimOf q.link n q.group = none → s.claims.length < 1024) :
    StepMade q.link q.group n s (s.stepFound q n) (s.stepBase q.link q.group n) := by
  unfold State.stepFound State.stepBase
  cases found : s.claimOf q.link n q.group with
  | none =>
    have made := State.seize_creates core found (room found)
    have frame := made.frame
    rw [List.filter_true] at frame
    refine ⟨made.put, frame, fun m => ?_, ?_, made.timed⟩
    · rw [made.slot]; simp [found]
    · exact Nat.le_succ _
  | some c =>
    obtain ⟨mem, place⟩ := core.claimOf_iff.mp found
    exact ⟨.of_rewritten core found rfl rfl (rewritten_self core.numbers_differ mem).symm core, rfl,
      fun m => by simp [found], le_rfl, id⟩

end

end Sys2Proof.Machine
end

section
/-! PROOF. One slot of a STEP (R63, R94 to R96): its steps started on the link's claim, or appended to its pending queue. -/

namespace Sys2Proof.Machine

/-- R92: a request's low mark is at most 7. -/
def StepRequest.LowFits (q : StepRequest) : Prop := ∀ k, q.lowMark = some k → k ≤ 7

/-- R63, R94: the claim with the request's mode and low mark, and its stamp set. -/
def StepRequest.stamped (q : StepRequest) (c : Claim) (now : Reading) (stamp : Nat) : Claim :=
  { q.setFields c with taken := now, takenOrder := stamp }

/-- R95: whether claim `k` is taken between two states: it owns the group in the later one, and did not in the first. -/
def takenBetween (u v : State) (n : SlotNo) (g : Group) (k : Nat) : Bool :=
  decide (v.ownerNumber n g = some k) && decide (u.ownerNumber n g ≠ some k)

/-- R63, R95: the value from which a first step starts. -/
def startsFrom (u v : State) (n : SlotNo) (g : Group) (c : Claim) : Value :=
  if takenBetween u v n g c.number then u.present n g else c.ownValue u.now

/-- One slot of a STEP that starts its first step on the link's claim (R63, R94, R95). -/
structure SlotStarted (q : StepRequest) (n : SlotNo) (x : Step) (rest : List Step) (c : Claim) (u v : State)
    (lost : List (Link × SlotNo)) : Prop where
  taken : SlotTaken q.link q.group n u v lost
  claim : ∃ stamp, u.stampCount ≤ stamp ∧ v.claimOf q.link n q.group =
    some ((q.stamped c u.now stamp).started x rest (startsFrom u v n q.group c) u.now)
  entries : ∀ value, v.expiryList = reentered c.number (some (x.runFrom value u.now false)) u.expiryList
  fades : (v.slot n).fades =
    if takenBetween u v n q.group c.number then (u.slot n).fades.set q.group none
    else if u.claimOf q.link n q.group = none then (u.slot n).fades.set q.group (u.runningFade n q.group)
    else (u.slot n).fades
  changed : (v.slot n).flags.changed = true
  timed : (∀ y ∈ x :: rest, y.TimesFit) → u.Timed → v.Timed

section
variable {l : Link} {g : Group} {n : SlotNo} {s w : State} {c : Claim} {q : StepRequest}

/-- R63, R94: the claim found or created takes the request's fields, and its stamp is set. -/
def StepRequest.stampOn (q : StepRequest) (w : State) (k : Nat) : State := (w.mapClaim k q.setFields).stampTaken k

theorem StepRequest.stampOn_frame (q : StepRequest) (w : State) (k : Nat) :
    q.stampOn w k = { w with claims := (q.stampOn w k).claims, stampCount := w.stampCount + 1 } := rfl

theorem StepRequest.stampOn_claims (q : StepRequest) (core : w.PoolCore) (mem : c ∈ w.claims) :
    (q.stampOn w c.number).claims = rewritten (q.stamped c w.now w.stampCount) w.claims := by
  have one := State.mapClaim_rewritten core.numbers_differ mem (change := q.setFields) rfl
  exact State.stampTaken_rewritten (d := q.setFields c) core.numbers_differ mem rfl one

theorem StepRequest.stampOn_put (put : ClaimPut l g n s w c) (low : q.LowFits) :
    ClaimPut l g n s (q.stampOn w c.number) (q.stamped c w.now w.stampCount) := by
  obtain ⟨mem, -⟩ := put.mem
  have claims := q.stampOn_claims put.core mem
  have pool := put.core.in_pool c mem
  have lowMark : q.lowMark.getD c.lowMark ≤ 7 := by
    cases given : q.lowMark with
    | none => exact pool.low_fits
    | some k => exact low k given
  refine put.rewrite rfl rfl claims (put.core.rewrite (d := q.stamped c w.now w.stampCount) mem rfl rfl claims (.inr ⟨rfl, rfl⟩) (Nat.le_succ _) (.inr le_rfl) ?_)
  exact ⟨pool.number_fits, pool.queue_fits, lowMark, Nat.lt_succ_self _, pool.queue_behind⟩

/-- A step started on a claim of the pool. -/
theorem State.startOn_put (put : ClaimPut l g n s w c) {z : State} (claims : z.claims = w.claims)
    (entries : z.expiryList = w.expiryList) (stamps : z.stampCount = w.stampCount) {x : Step} {rest : List Step}
    (length : rest.length ≤ 8) (value : Value) (now : Reading) :
    ClaimPut l g n s (z.startOn c.number n x rest value now) (c.started x rest value now) := by
  obtain ⟨mem, -⟩ := put.mem
  have rewritten := State.startOn_claims (u := z) (d := c) put.core.numbers_differ mem rfl
    (claims.trans (rewritten_self put.core.numbers_differ mem).symm) n x rest value now
  have frame := z.startOn_frame c.number n x rest value now
  have stamps' : (z.startOn c.number n x rest value now).stampCount = w.stampCount := by rw [frame]; exact stamps
  have pool := put.core.in_pool c mem
  refine put.rewrite rfl rfl rewritten (put.core.rewrite (d := c.started x rest value now) mem rfl rfl rewritten (.inl ?_) stamps'.ge (.inl rfl) ?_)
  · rw [frame, ← entries]; rfl
  · exact ⟨pool.number_fits, length, pool.low_fits, stamps' ▸ pool.order_past, fun rests => nomatch rests⟩

/-- R63, R95: the operations of the start of a first step, in their order: the stamp, the owner, the start. -/
theorem State.startSteps_eq (v : State) (c : Claim) (before : Option Claim) (value : Value) (x : Step) (rest : List Step) :
    ((v.startSteps c before value x rest).1.arm c.number, (v.startSteps c before value x rest).2) =
      (((v.stampTaken c.number).settleOwner c.slot c.group c.number before false).1.startOn c.number c.slot x rest
        (if decide ((v.stampTaken c.number).ownerNumber c.slot c.group = some c.number) &&
            !decide (before.map (·.number) = some c.number) then value else c.ownValue v.now) v.now,
        ((v.stampTaken c.number).settleOwner c.slot c.group c.number before false).2) := by
  unfold State.startSteps State.startOn
  dsimp only

/-- R94, R95: a slot of a STEP that starts its first step. -/
theorem State.stepSlot_starts (found : (s.stepFound q n).claimOf q.link n q.group = some c) {x : Step} {rest : List Step}
    (starts : q.option = .replace ∨ c.running = none) :
    s.stepSlot q n (x :: rest) =
      ((((s.stepFound q n).mapClaim c.number q.setFields).startSteps (q.setFields c) (s.owner n q.group)
          (s.present n q.group) x rest).1.arm c.number,
        (((s.stepFound q n).mapClaim c.number q.setFields).startSteps (q.setFields c) (s.owner n q.group)
          (s.present n q.group) x rest).2) := by
  have unfolded : s.stepSlot q n (x :: rest) = (match (s.stepFound q n).claimOf q.link n q.group with
      | none => (s.stepFound q n, [])
      | some c =>
        let done :=
          if q.option = StepOption.replace ∨ c.running = none then
            ((s.stepFound q n).mapClaim c.number q.setFields).startSteps (q.setFields c) (s.owner n q.group)
              (s.present n q.group) x rest
          else (((s.stepFound q n).mapClaim c.number q.setFields).mapClaim c.number
            (fun c => { c with queue := c.queue ++ (x :: rest) }), [])
        (done.1.arm c.number, done.2)) := rfl
  rw [unfolded, found]
  dsimp only
  rw [if_pos starts]

/-- R63, R95: the owner settled and the first step started on the claim stamped. -/
theorem ClaimPut.settled_started {d : Claim} (put : ClaimPut l g n s w d) {x : Step} {rest : List Step}
    (length : rest.length ≤ 8) (value : Value) (now : Reading) {v : State}
    (hv : v = (w.settleOwner n g d.number (s.owner n g) false).1.startOn d.number n x rest value now) :
    ClaimPut l g n s v (d.started x rest value now) ∧
      v = { w with slots := v.slots, claims := v.claims, expiryList := v.expiryList } ∧
      v.claims = rewritten (d.started x rest value now) w.claims ∧
      v.expiryList = reentered d.number (some (x.runFrom value now false)) w.expiryList ∧
      (∀ m, v.slot m = if m = n then { w.slot n with
          fades := if w.takes n g d.number (s.owner n g) then (w.slot n).fades.set g none else (w.slot n).fades
          flags := { (w.slot n).flags with changed := true } } else w.slot m) ∧
      (∀ m h, v.ownerNumber m h = w.ownerNumber m h) ∧ lostAt s v l g n = lostAt s w l g n := by
  obtain ⟨mem, -⟩ := put.mem
  rw [State.settleOwner_eq] at hv
  generalize hx : ({ w.slot n with fades := _, flags := _ } : Slot) = y at hv
  have frame := (w.setSlot n y).startOn_frame d.number n x rest value now
  rw [← hv] at frame
  have after : ClaimPut l g n s v (d.started x rest value now) := hv ▸ State.startOn_put put (z := w.setSlot n y) rfl rfl rfl length value now
  have claims : v.claims = rewritten (d.started x rest value now) w.claims := hv ▸ State.startOn_claims
    put.core.numbers_differ mem rfl (rewritten_self put.core.numbers_differ mem).symm n x rest value now
  have same : d.Ranks (d.started x rest value now) := ⟨rfl, rfl, rfl, rfl, rfl, rfl⟩
  have all := rewritten_ranks put.core.numbers_differ mem same
  refine ⟨after, ?_, claims, ?_, fun m => ?_, put.core.ownerNumber_map after.core claims all, ?_⟩
  · exact frame.trans (by rw [frame]; rfl)
  · rw [frame]; rfl
  · have slot : v.slot m = ((w.setSlot n y).setChanged n).slot m := by rw [frame]; rfl
    rw [slot]
    unfold State.setChanged
    rw [State.setSlot_slot, State.setSlot_slot_self]
    split
    · rw [← hx]; simp
    · rename_i ne
      rw [State.setSlot_slot_ne _ _ ne]
  · unfold lostAt
    rw [put.core.ownerLink_map after.core claims all]

/-- The claim on a slot stamped and started, in one change. -/
theorem StepRequest.stamped_started_claims (q : StepRequest) (put : ClaimPut l g n s w c) {v : State} {x : Step}
    {rest : List Step} {value : Value} {now : Reading}
    (claims : v.claims = rewritten ((q.stamped c w.now w.stampCount).started x rest value now) (q.stampOn w c.number).claims) :
    v.claims = rewritten ((q.stamped c w.now w.stampCount).started x rest value now) w.claims := by
  rw [claims, q.stampOn_claims put.core put.mem.1]
  exact rewritten_rewritten (d := q.stamped c w.now w.stampCount)
    (d' := (q.stamped c w.now w.stampCount).started x rest value now) rfl _

theorem timeLeft_self (now : Reading) : timeLeft now now = 0 := by unfold timeLeft; simp

/-- R63, R94, R95: the first step started on the claim found or created. -/
theorem StepMade.started (made : StepMade q.link q.group n s w c) (low : q.LowFits) {x : Step} {rest : List Step}
    (length : rest.length ≤ 8) {v : State} {value : Value}
    (hv : v = ((q.stampOn w c.number).settleOwner n q.group c.number (s.owner n q.group) false).1.startOn c.number n x rest
      value s.now)
    (hvalue : value = if takenBetween s (q.stampOn w c.number) n q.group c.number then s.present n q.group
      else c.ownValue s.now) :
    SlotStarted q n x rest c s v
      ((q.stampOn w c.number).settleOwner n q.group c.number (s.owner n q.group) false).2 := by
  obtain ⟨put, frame, slots, stamps, timed⟩ := made
  have now : w.now = s.now := by rw [frame]; rfl
  have stamped := q.stampOn_put put low
  have stampFrame := q.stampOn_frame w c.number
  have lost := stamped.settleOwner_lost false
  obtain ⟨after, frame', claims, entries, slot, owner, lost'⟩ := stamped.settled_started length value s.now hv
  have claims' := q.stamped_started_claims put claims
  have taken : takenBetween s v n q.group c.number = takenBetween s (q.stampOn w c.number) n q.group c.number := by
    unfold takenBetween; rw [owner]
  have slot_n : ∀ m, (q.stampOn w c.number).slot m = w.slot m := fun _ => by rw [stampFrame]; rfl
  have wexp : w.expiryList = s.expiryList := by rw [frame]
  have here := slot n
  rw [if_pos rfl, slot_n, slots] at here
  have takes : (q.stampOn w c.number).takes n q.group (q.stamped c w.now w.stampCount).number (s.owner n q.group) =
      takenBetween s v n q.group c.number := by rw [taken]; rfl
  rw [takes] at here
  refine ⟨⟨?_, after.others, fun m ne => ?_, ?_, ?_, put.before, after.core, ⟨_, after.found, after.numbers⟩, after.count, ?_⟩,
    ⟨w.stampCount, stamps, ?_⟩, fun value' => ?_, ?_, ?_, fun fits before => ?_⟩
  · rw [frame', stampFrame, frame]
  · rw [slot, if_neg ne, slot_n, slots, if_neg (fun h => ne h.1)]
  · rw [here]; split <;> rfl
  · rw [frame', stampFrame]
    exact stamps.trans (Nat.le_succ _)
  · rw [lost', ← lost]; rfl
  · rw [after.found, now]
    unfold startsFrom
    rw [taken, hvalue]
  · rw [entries, stampFrame, ← wexp]; rfl
  · rw [here]
    by_cases unclaimed : s.claimOf q.link n q.group = none
    · simp [unclaimed, PerGroup.set_set]
    · simp [unclaimed]
  · rw [here]
  · refine (timed before).rewrite (d := (q.stamped c w.now w.stampCount).started x rest value s.now) put.core put.mem.1 rfl
      claims' (.inl ?_) ?_ fits (.inr fun r run => ?_)
    · rw [entries, stampFrame]; rfl
    · rw [frame', stampFrame]; rfl
    · rw [← Option.some.inj run, now]
      have here := timeLeft_self s.now
      exact Step.runFrom_near (by unfold ExpiryNear; omega) here.le (fits x List.mem_cons_self)

/-- R63, R94, R95: a STEP serves a slot by starting its first step there. -/
theorem State.stepSlot_started (core : s.PoolCore) (room : s.claimOf q.link n q.group = none → s.claims.length < 1024)
    (low : q.LowFits) {x : Step} {rest : List Step} (length : rest.length ≤ 8)
    (starts : q.option = .replace ∨ (s.stepBase q.link q.group n).running = none) :
    SlotStarted q n x rest (s.stepBase q.link q.group n) s (s.stepSlot q n (x :: rest)).1 (s.stepSlot q n (x :: rest)).2 := by
  have made := State.stepFound_made (q := q) (n := n) core room
  have served := (State.stepSlot_starts made.put.found starts).trans (State.startSteps_eq _ _ _ _ x rest)
  rw [served]
  generalize s.stepBase q.link q.group n = c at *
  generalize s.stepFound q n = w at *
  have place := made.put.mem.2
  have slot : (q.setFields c).slot = n := congrArg (fun p : Link × SlotNo × Group => p.2.1) place
  have group : (q.setFields c).group = q.group := congrArg (fun p : Link × SlotNo × Group => p.2.2) place
  have now : (w.mapClaim c.number q.setFields).now = s.now := by rw [made.frame]; rfl
  have number : (q.setFields c).number = c.number := rfl
  have own : (q.setFields c).ownValue s.now = c.ownValue s.now := rfl
  rw [slot, group, now, number, own]
  refine made.started low length rfl ?_
  unfold takenBetween
  congr 1
  simp only [Bool.and_eq_true, Bool.not_eq_true', decide_eq_true_eq, decide_eq_false_iff_not]
  rfl

end

end Sys2Proof.Machine
end

section
/-! PROOF. One slot of a STEP that runs a step already (R96), and the slots of a STEP one after another (R93, R94). -/

namespace Sys2Proof.Machine

/-! ### Steps that wait their turn (R96) -/

/-- R94, R96: the claim with the steps of the request at the tail of its pending queue. -/
def StepRequest.appended (q : StepRequest) (c : Claim) (steps : List Step) : Claim :=
  { q.setFields c with
    queue := c.queue ++ steps, armed := c.armed || decide ((q.setFields c).lowMark < (c.queue ++ steps).length) }

/-- One slot of a STEP whose steps wait behind the one that runs (R94, R96). -/
structure SlotAppended (q : StepRequest) (n : SlotNo) (steps : List Step) (c : Claim) (u v : State)
    (lost : List (Link × SlotNo)) : Prop where
  taken : SlotTaken q.link q.group n u v lost
  found : u.claimOf q.link n q.group = some c
  claim : v.claimOf q.link n q.group = some (q.appended c steps)
  frame : v = { u with claims := v.claims }
  timed : (∀ y ∈ steps, y.TimesFit) → u.Timed → v.Timed

section
variable {l : Link} {g : Group} {n : SlotNo} {s t : State} {q : StepRequest} {c : Claim} {steps : List Step}

/-- No link loses a group on which the links that lead are as they were. -/
theorem lostAt_same (owner : (t.owner n g).map (·.link) = (s.owner n g).map (·.link)) : lostAt s t l g n = [] := by
  unfold lostAt
  rw [owner]
  cases s.owner n g with
  | none => rfl
  | some b => simp

theorem StepRequest.appended_steps (c : Claim) (steps : List Step) : (q.appended c steps).steps = c.steps ++ steps :=
  (List.append_assoc _ _ _).symm

/-- R94, R96: a STEP appends its steps to the pending queue of a claim that runs one. -/
theorem State.stepSlot_appended (core : s.PoolCore) (found : s.claimOf q.link n q.group = some c) (low : q.LowFits)
    (append : q.option ≠ .replace) (runs : c.running ≠ none) (length : c.queue.length + steps.length ≤ 8)
    (filled : steps ≠ []) : SlotAppended q n steps c s (s.stepSlot q n steps).1 (s.stepSlot q n steps).2 := by
  obtain ⟨mem, place⟩ := core.claimOf_iff.mp found
  have served : s.stepSlot q n steps =
      (((s.mapClaim c.number q.setFields).mapClaim c.number (fun c => { c with queue := c.queue ++ steps })).arm c.number, []) := by
    have base : s.stepFound q n = s := by unfold State.stepFound; rw [found]
    obtain ⟨x, rest, rfl⟩ := List.exists_cons_of_ne_nil filled
    have unfolded : s.stepSlot q n (x :: rest) = (match (s.stepFound q n).claimOf q.link n q.group with
        | none => (s.stepFound q n, [])
        | some c =>
          let done :=
            if q.option = StepOption.replace ∨ c.running = none then
              ((s.stepFound q n).mapClaim c.number q.setFields).startSteps (q.setFields c) (s.owner n q.group)
                (s.present n q.group) x rest
            else (((s.stepFound q n).mapClaim c.number q.setFields).mapClaim c.number
              (fun c => { c with queue := c.queue ++ (x :: rest) }), [])
          (done.1.arm c.number, done.2)) := rfl
    rw [unfolded, base, found]
    dsimp only
    rw [if_neg (not_or.mpr ⟨append, runs⟩)]
  rw [served]
  generalize hv : ((s.mapClaim c.number q.setFields).mapClaim c.number (fun c => { c with queue := c.queue ++ steps })).arm
    c.number = v
  have frame : v = { s with claims := v.claims } := by rw [← hv]; rfl
  have claims : v.claims = rewritten (q.appended c steps) s.claims := by
    have one := State.mapClaim_rewritten core.numbers_differ mem (change := q.setFields) rfl
    have two := State.mapClaim_of_rewritten (d := q.setFields c) core.numbers_differ mem rfl one
      (change := fun c => { c with queue := c.queue ++ steps }) rfl
    rw [← hv]
    exact State.arm_rewritten (d := { q.setFields c with queue := c.queue ++ steps }) core.numbers_differ mem rfl two
  have stamps : v.stampCount = s.stampCount := by rw [frame]
  have pool := core.in_pool c mem
  have lowMark : q.lowMark.getD c.lowMark ≤ 7 := by
    cases given : q.lowMark with
    | none => exact pool.low_fits
    | some k => exact low k given
  have after : v.PoolCore := core.rewrite (d := q.appended c steps) mem rfl rfl claims (.inr ⟨by rw [frame], rfl⟩) stamps.ge
    (.inl rfl) ⟨pool.number_fits, by unfold StepRequest.appended; rwa [List.length_append], lowMark, stamps ▸ pool.order_past,
      fun rests => absurd rests runs⟩
  have put : ClaimPut q.link q.group n s v (q.appended c steps) := .of_rewritten core found rfl rfl claims after
  have ranks : c.Ranks (q.appended c steps) := ⟨rfl, rfl, rfl, rfl, rfl, rfl⟩
  have owners := core.ownerLink_map after claims (rewritten_ranks core.numbers_differ mem ranks) n q.group
  have slots : ∀ m, v.slot m = s.slot m := fun m => by rw [frame]; rfl
  have steps_eq := q.appended_steps c steps
  refine ⟨⟨?_, put.others, fun m _ => slots m, ?_, stamps.ge, core, after, ⟨_, put.found, put.numbers⟩, put.count,
    (lostAt_same owners).symm⟩, found, put.found, frame, fun fits timed => ?_⟩
  · rw [frame]
  · rw [slots]
  · refine timed.rewrite (d := q.appended c steps) core mem rfl claims (.inr ?_) ?_ (fun x hx => ?_) (.inl rfl)
    · rw [frame]
    · rw [frame]; rfl
    · rw [steps_eq] at hx
      exact (List.mem_append.mp hx).elim (timed.times c mem x) (fits x)

end

end Sys2Proof.Machine
end

section
/-! PROOF. The slots of a STEP one after another (R90, R93, R94). -/

namespace Sys2Proof.Machine

/-! ### The copies of a request's steps (R92) -/

section
variable {fields : List StepFields} {records : List Nat}

theorem copies_fields (length : records.length = fields.length) :
    (List.zipWith StepFields.toStep fields records).map fieldsOf = fields.map lowered := by
  induction fields generalizing records with
  | nil => rfl
  | cons x rest ih =>
    cases records with
    | nil => cases length
    | cons r rs => exact congrArg (lowered x :: ·) (ih (Nat.succ.inj length))

theorem copies_records (length : records.length = fields.length) :
    (List.zipWith StepFields.toStep fields records).map (·.record) = records := by
  induction fields generalizing records with
  | nil => exact (List.length_eq_zero_iff.mp length).symm
  | cons x rest ih =>
    cases records with
    | nil => cases length
    | cons r rs => exact congrArg (r :: ·) (ih (Nat.succ.inj length))

/-- R92: the times of a copy are in range. -/
theorem timesFit_of_lowered {y : Step} {x : StepFields} (copy : fieldsOf y = lowered x) : y.TimesFit := by
  have duration : y.duration = min x.duration 600000 := congrArg StepFields.duration copy
  have dwell : y.dwell = min x.dwell 600000 := congrArg StepFields.dwell copy
  exact ⟨by omega, by omega⟩

theorem timesFit_of_copies {steps : List Step} (copies : steps.map fieldsOf = fields.map lowered) :
    ∀ y ∈ steps, y.TimesFit := fun y hy => by
  have mem : fieldsOf y ∈ fields.map lowered := copies ▸ List.mem_map_of_mem hy
  obtain ⟨x, -, same⟩ := List.mem_map.mp mem
  exact timesFit_of_lowered same.symm

end

/-! ### One slot -/

/-- R95, R96: whether a STEP starts its first step on a claim. -/
def StepRequest.StartsOn (q : StepRequest) (c : Claim) : Prop := q.option = .replace ∨ c.running = none

/-- One slot of a STEP: its steps, copied from the request's, start or wait. -/
inductive StepServed (q : StepRequest) (fields : List StepFields) (n : SlotNo) (u v : State) (lost : List (Link × SlotNo)) : Prop
  | started (x : Step) (rest : List Step) (copies : (x :: rest).map fieldsOf = fields.map lowered)
      (starts : q.StartsOn (u.stepBase q.link q.group n))
      (served : SlotStarted q n x rest (u.stepBase q.link q.group n) u v lost)
  | appended (steps : List Step) (copies : steps.map fieldsOf = fields.map lowered)
      (waits : ¬ q.StartsOn (u.stepBase q.link q.group n))
      (served : SlotAppended q n steps (u.stepBase q.link q.group n) u v lost)

section
variable {q : StepRequest} {fields : List StepFields} {n : SlotNo} {s u v : State} {lost : List (Link × SlotNo)}

theorem StepServed.taken (h : StepServed q fields n u v lost) : SlotTaken q.link q.group n u v lost := by
  cases h with
  | started x rest copies starts served => exact served.taken
  | appended steps copies waits served => exact served.taken

theorem StepServed.timed (h : StepServed q fields n u v lost) (timed : u.Timed) : v.Timed := by
  cases h with
  | started x rest copies starts served => exact served.timed (timesFit_of_copies copies) timed
  | appended steps copies waits served => exact served.timed (timesFit_of_copies copies) timed

/-- R96: the pending queues have room for a request's steps where they wait. -/
def State.QueuesFit (s : State) (q : StepRequest) (ns : List SlotNo) (count : Nat) : Prop :=
  q.option = .replace ∨ ∀ n ∈ ns, ∀ c, s.claimOf q.link n q.group = some c → c.running.isSome = true →
    c.queue.length + count ≤ 8

/-- The records of the link's claim on a slot group, if it holds one. -/
def State.recordsAt (s : State) (l : Link) (g : Group) (n : SlotNo) : List Nat :=
  ((s.claimOf l n g).map Claim.records).getD []

/-- R94: a slot of a STEP that passes its tests is served, and its claim uses the records given to it, with those that the
STEP does not return. -/
theorem State.stepSlot_served (core : s.PoolCore) (room : s.claimOf q.link n q.group = none → s.claims.length < 1024)
    (low : q.LowFits) (queues : s.QueuesFit q [n] fields.length) (filled : fields ≠ []) (few : fields.length ≤ 8)
    {records : List Nat} (length : records.length = fields.length) :
    StepServed q fields n s (s.stepSlot q n (List.zipWith StepFields.toStep fields records)).1
        (s.stepSlot q n (List.zipWith StepFields.toStep fields records)).2 ∧
      (s.stepSlot q n (List.zipWith StepFields.toStep fields records)).1.recordsAt q.link q.group n =
        (if q.option = .replace then [] else s.recordsAt q.link q.group n) ++ records := by
  have copies := copies_fields length
  have used := copies_records length
  generalize List.zipWith StepFields.toStep fields records = steps at *
  obtain ⟨x, rest, rfl⟩ : ∃ x rest, steps = x :: rest := by
    refine List.exists_cons_of_ne_nil fun none => filled ?_
    rw [none] at copies
    exact List.map_eq_nil_iff.mp copies.symm
  have total : rest.length + 1 = fields.length := by simpa using congrArg List.length copies
  by_cases starts : q.StartsOn (s.stepBase q.link q.group n)
  · have served := State.stepSlot_started core room low (x := x) (rest := rest) (by omega) starts
    refine ⟨.started x rest copies starts served, ?_⟩
    obtain ⟨stamp, -, claim⟩ := served.claim
    have none : (if q.option = .replace then [] else s.recordsAt q.link q.group n) = [] := by
      split
      · rfl
      · rename_i append
        have rests := starts.resolve_left append
        unfold State.stepBase at rests
        unfold State.recordsAt
        cases found : s.claimOf q.link n q.group with
        | none => rfl
        | some c =>
          rw [found] at rests
          have empty := (core.in_pool c (core.claimOf_iff.mp found).1).queue_behind rests
          unfold Claim.records
          rw [Option.map_some, Option.getD_some, rests, empty]
          rfl
    rw [none]
    unfold State.recordsAt
    rw [claim]
    exact used
  · obtain ⟨append, runs⟩ := not_or.mp starts
    unfold State.stepBase at runs starts
    cases found : s.claimOf q.link n q.group with
    | none => rw [found] at runs; exact absurd rfl runs
    | some c =>
      rw [found] at runs starts
      have fits := queues.resolve_left append n List.mem_cons_self c found (Option.isSome_iff_ne_none.mpr runs)
      have served := State.stepSlot_appended core found low append runs (steps := x :: rest) (by simpa [total] using fits)
        (List.cons_ne_nil _ _)
      have base : s.stepBase q.link q.group n = c := by unfold State.stepBase; rw [found]
      refine ⟨.appended (x :: rest) copies (base ▸ starts) (base ▸ served), ?_⟩
      unfold State.recordsAt
      rw [if_neg append, served.claim, found, Option.map_some, Option.getD_some, Option.map_some, Option.getD_some,
        Claim.records_eq, q.appended_steps, List.map_append, ← Claim.records_eq, used]

/-- R93, R94: the slots of a STEP that passes its tests are served one after another; its claims then use the records given,
with those that the STEP does not return. -/
theorem State.stepSlots_passage {ns : List SlotNo} {records : List Nat} (core : s.PoolCore)
    (room : s.HasRoom q.link q.group ns) (nodup : ns.Nodup) (low : q.LowFits) (queues : s.QueuesFit q ns fields.length)
    (filled : fields ≠ []) (few : fields.length ≤ 8) (length : records.length = fields.length * ns.length) :
    Passage (StepServed q fields) ns s (State.stepSlots q fields ns records s).1 (State.stepSlots q fields ns records s).2 ∧
      ((State.stepSlots q fields ns records s).1.recordsOf q.link q.group ns).Perm
        ((if q.option = .replace then [] else s.recordsOf q.link q.group ns) ++ records) := by
  induction ns generalizing s records with
  | nil =>
    have none : records = [] := List.length_eq_zero_iff.mp length
    refine ⟨.nil s, List.Perm.of_eq ?_⟩
    rw [none]
    split <;> rfl
  | cons n ns ih =>
    obtain ⟨fresh, nodup⟩ := List.nodup_cons.mp nodup
    have total : fields.length * (n :: ns).length = fields.length + fields.length * ns.length := by
      rw [List.length_cons, Nat.mul_succ, Nat.add_comm]
    have taken : (records.take fields.length).length = fields.length := by rw [List.length_take]; omega
    have left : (records.drop fields.length).length = fields.length * ns.length := by rw [List.length_drop]; omega
    obtain ⟨one, used⟩ := State.stepSlot_served (fields := fields) core room.one low
      (queues.imp_right fun fits m hm => fits m (by rw [List.mem_singleton.mp hm]; exact List.mem_cons_self)) filled few taken
    have same : ∀ m ∈ ns, SlotSame m s (s.stepSlot q n (List.zipWith StepFields.toStep fields (records.take fields.length))).1 :=
      fun m hm => one.taken.same fun e => fresh (e ▸ hm)
    obtain ⟨others, rest⟩ := ih one.taken.after (one.taken.room fresh room) nodup
      (queues.imp_right fun fits m hm c found => fits m (List.mem_cons_of_mem n hm) c (((same m hm).claims _ _).symm.trans found))
      left
    refine ⟨.cons one others, ?_⟩
    have unfolded : State.stepSlots q fields (n :: ns) records s = (_, _) := rfl
    rw [unfolded]
    generalize (s.stepSlot q n (List.zipWith StepFields.toStep fields (records.take fields.length))).1 = v at *
    have before : v.recordsOf q.link q.group ns = s.recordsOf q.link q.group ns :=
      List.flatMap_congr fun m hm => by rw [(same m hm).claims]
    have here := (others.slot_same StepServed.taken fresh).claims q.link q.group
    rw [before] at rest
    generalize (State.stepSlots q fields ns (records.drop fields.length) v).1 = t at *
    have split : ∀ u : State, u.recordsOf q.link q.group (n :: ns) =
        u.recordsAt q.link q.group n ++ u.recordsOf q.link q.group ns := fun _ => rfl
    have kept : t.recordsAt q.link q.group n = v.recordsAt q.link q.group n := by unfold State.recordsAt; rw [here]
    rw [split, split, kept, used]
    have joined := (rest.append_left (records.take fields.length))
    by_cases replace : q.option = .replace
    · simp only [if_pos replace, List.nil_append] at joined ⊢
      rwa [List.take_append_drop] at joined
    · simp only [if_neg replace] at joined ⊢
      rw [List.append_assoc, List.append_assoc]
      refine (joined.append_left _).trans (.append_left _ ((List.perm_append_comm_assoc _ _ _).trans ?_))
      rw [List.take_append_drop]

end

end Sys2Proof.Machine
end

section
/-! PROOF. Steps of no time (R97 to R99, R101): what is left of a claim at the end of an event that started a step on it,
and the notice that its link hears. -/

namespace Sys2Proof.Machine

/-! ### The notices of the retirements -/

/-- R101: the notices of the retirements that lead to `Claim.endedBy`. -/
def Claim.noticesBy : List Step → Claim → List Notice
  | [], c =>
    match c.running with
    | none => []
    | some r => if r.step.instant then c.retireNotices r else []
  | _ :: rest, c =>
    match c.running with
    | none => []
    | some r => if r.step.instant then c.retireNotices r ++ Claim.noticesBy rest (c.retired r) else []

/-- R97, R101: the notices that a claim's link hears of it when its steps of no time retire. -/
def Claim.settleNotices (c : Claim) : List Notice := Claim.noticesBy c.queue c

section
variable {c : Claim} {r : RunningStep}

theorem Claim.settleNotices_of_rest (h : c.running = none) : c.settleNotices = [] := by
  unfold Claim.settleNotices Claim.noticesBy; split <;> simp [h]

theorem Claim.settleNotices_of_timed (h : c.running = some r) (timed : r.step.instant = false) : c.settleNotices = [] := by
  unfold Claim.settleNotices Claim.noticesBy; split <;> simp [h, timed]

theorem Claim.settleNotices_of_instant (h : c.running = some r) (instant : r.step.instant = true) :
    c.settleNotices = c.retireNotices r ++ (c.retired r).settleNotices := by
  have follows := c.queueAtRetirement_of_instant instant
  unfold Claim.settleNotices
  cases queue : c.queue with
  | nil =>
    have rests : (c.retired r).running = none := by unfold Claim.retired; rw [follows, queue]
    rw [show Claim.noticesBy (c.retired r).queue (c.retired r) = [] from Claim.settleNotices_of_rest rests, List.append_nil]
    simp [Claim.noticesBy, h, instant]
  | cons x rest =>
    have left : (c.retired r).queue = rest := by
      unfold Claim.retired
      rw [follows, queue]
      exact (Claim.lowChecked_steps _).2.1
    rw [left]
    simp [Claim.noticesBy, h, instant]

theorem Claim.settleNotices_of_settled (h : ∀ r, c.running = some r → r.step.instant = false) : c.settleNotices = [] := by
  cases run : c.running with
  | none => exact Claim.settleNotices_of_rest run
  | some r => exact Claim.settleNotices_of_timed run (h r run)

end

/-! ### What is left of a claim (R97 to R99) -/

theorem settled_length {α : Type} (instant : α → Bool) (x : α) (rest : List α) :
    (settled instant x rest).2.length ≤ rest.length := by
  induction rest generalizing x with
  | nil => exact le_rfl
  | cons y rest ih =>
    unfold settled
    split
    · exact (ih y).trans (Nat.le_succ _)
    · exact le_rfl

/-- R101: a link hears of its claim's low queue when the first step leaves it, or of what is left then. -/
theorem lowNotices_cons {α : Type} {mode : Mode} {low : Nat} {armed : Bool} {n : SlotNo} {g : Group} (x : α)
    (more left : List α) (fits : left.length ≤ more.length) :
    lowNotices mode low armed n g (x :: more) left =
      if mode = .oneShot ∧ armed = true ∧ more.length ≤ low then [.queueLow n g more.length]
      else lowNotices mode low armed n g more left := by
  unfold lowNotices
  by_cases armedShot : mode = .oneShot ∧ armed = true
  · obtain ⟨rfl, rfl⟩ := armedShot
    by_cases few : more.length ≤ low
    · have fewer : left.length - 1 ≤ low := by omega
      simp [few, fewer]
    · have filled : more ≠ [] := by rintro rfl; simp at few
      have least : min low (more.length - 1) = min low more.length := by omega
      simp [few, filled, least]
  · have no : ∀ p : Prop, ¬(mode = .oneShot ∧ armed = true ∧ p) := fun p h => armedShot ⟨h.1, h.2.1⟩
    rw [if_neg (no _), if_neg (no _), if_neg (no _)]

theorem lowNotices_disarmed {α : Type} {mode : Mode} {low : Nat} {n : SlotNo} {g : Group} (waiting left : List α) :
    lowNotices mode low false n g waiting left = [] := by simp [lowNotices]

theorem Claim.lowNotice_eq (c : Claim) : c.lowNotice =
    if c.mode = .oneShot ∧ c.armed = true ∧ c.queue.length ≤ c.lowMark then [.queueLow c.slot c.group c.queue.length]
    else [] := by
  unfold Claim.lowNotice Claim.low; simp

theorem Step.runFrom_expiry_of_instant {x : Step} (instant : x.instant = true) (value : Value) (start : Reading)
    (dropIn : Bool) : (x.runFrom value start dropIn).expiry = start := by
  simp only [Step.instant, Bool.and_eq_true, decide_eq_true_eq] at instant
  simp [Step.runFrom, instant]

/-- R97 to R99, R101: what a claim that runs a step of no time is at the end of the event, and what its link hears. -/
structure Claim.Left (c d : Claim) (expiry : Reading) (left : Step × List Step) (heard : List Notice) : Prop where
  same : c.Same d
  queue : d.queue = left.2.tail
  at_rest : left.2 = [] → d.running = none ∧ d.rest = left.1.target
  runs : ∀ y more, left.2 = y :: more → d.rest = c.rest ∧ d.running = some (y.runFrom left.1.target expiry left.1.tie)
  armed : d.armed = (c.armed && heard.isEmpty)

theorem left_of_instant {rest : List Step} {c : Claim} {r : RunningStep} (run : c.running = some r)
    (instant : r.step.instant = true) (queue : c.queue = rest) :
    c.Left c.ended r.expiry (settled Step.instant r.step rest) c.settleNotices ∧
      c.settleNotices = lowNotices c.mode c.lowMark c.armed c.slot c.group rest (settled Step.instant r.step rest).2 := by
  induction rest generalizing c r with
  | nil =>
    have rests : c.retired r = { c with running := none, queue := [], rest := r.step.target } := by
      unfold Claim.retired; rw [c.queueAtRetirement_of_instant instant, queue]
    have silent : c.settleNotices = [] := by
      rw [Claim.settleNotices_of_instant run instant, rests, Claim.settleNotices_of_rest rfl]
      unfold Claim.retireNotices
      rw [c.queueAtRetirement_of_instant instant, queue]
      rfl
    rw [Claim.ended_of_instant run instant, rests, Claim.ended_of_rest rfl, silent]
    refine ⟨⟨⟨rfl, rfl, rfl, rfl, rfl, rfl, rfl, rfl, rfl⟩, rfl, fun _ => ⟨rfl, rfl⟩, fun _ _ h => (nomatch h), by simp⟩, ?_⟩
    simp [lowNotices]
  | cons x more ih =>
    have next : c.retired r = (c.followed r x more).lowChecked := by
      unfold Claim.retired; rw [c.queueAtRetirement_of_instant instant, queue]
    have told : c.retireNotices r = (c.followed r x more).lowNotice := by
      unfold Claim.retireNotices; rw [c.queueAtRetirement_of_instant instant, queue]
    have low : (c.followed r x more).lowNotice = if c.mode = .oneShot ∧ c.armed = true ∧ more.length ≤ c.lowMark then
        [.queueLow c.slot c.group more.length] else [] := Claim.lowNotice_eq _
    have same : c.Same (c.retired r) := c.retired_same r
    obtain ⟨running, queue', rest'⟩ := Claim.lowChecked_steps (c.followed r x more)
    have armed : (c.retired r).armed = (c.armed && ((c.followed r x more).lowNotice).isEmpty) := by
      rw [next]
      unfold Claim.lowChecked Claim.lowNotice
      split <;> simp [Claim.followed]
    rw [← next] at running queue' rest'
    rw [Claim.ended_of_instant run instant, Claim.settleNotices_of_instant run instant, told]
    generalize c.retired r = d at *
    have left : settled Step.instant r.step (x :: more) =
        if x.instant then settled Step.instant x more else (r.step, x :: more) := rfl
    rw [left]
    by_cases timed : x.instant = true
    · rw [if_pos timed]
      obtain ⟨⟨same', queue'', at_rest, runs, armed'⟩, heard⟩ := ih running timed queue'
      rw [Step.runFrom_expiry_of_instant timed] at runs
      refine ⟨⟨same.trans same', queue'', at_rest, fun y ys h => ⟨(runs y ys h).1.trans rest', (runs y ys h).2⟩, ?_⟩, ?_⟩
      · rw [armed', armed, Bool.and_assoc]
        cases (c.followed r x more).lowNotice <;> rfl
      · rw [lowNotices_cons x more _ (settled_length _ _ _), heard, low, same.mode, same.lowMark, same.slot, same.group,
          armed, low]
        split
        · simp [lowNotices_disarmed]
        · simp [Step.runFrom]
    · rw [if_neg timed]
      have timed' : x.instant = false := Bool.eq_false_iff.mpr timed
      rw [Claim.ended_of_timed running timed', Claim.settleNotices_of_timed running timed', List.append_nil]
      refine ⟨⟨same, queue', fun h => (nomatch h), fun y ys h => ?_, armed⟩, ?_⟩
      · obtain ⟨rfl, rfl⟩ := List.cons.inj h
        exact ⟨rest', running⟩
      · rw [low]
        unfold lowNotices
        by_cases few : more.length ≤ c.lowMark <;> simp [few]

end Sys2Proof.Machine
end

section
/-! PROOF. The end of an event that started steps (R97, R99): what it leaves of the state, of the slots, of the links and of
the expiry list. -/

namespace Sys2Proof.Machine

section
variable {s : State} {c : Claim} {r : RunningStep}

/-! ### The state, the slots and the links -/

theorem State.setChanged_of_changed {n : SlotNo} (h : (s.slot n).flags.changed = true) : s.setChanged n = s := by
  unfold State.setChanged
  have same : ({ s.slot n with flags := { (s.slot n).flags with changed := true } } : Slot) = s.slot n := by rw [← h]
  rw [same, State.setSlot_slot_back]

/-- Every step of no time runs on a slot that has CHANGED set. -/
def State.InstantChanged (s : State) : Prop :=
  ∀ c ∈ s.claims, ∀ r, c.running = some r → r.step.instant = true → (s.slot c.slot).flags.changed = true

/-- R97: the end of the event changes claims, entries and slots, and tells links. -/
theorem State.settleSteps_frame (core : s.PoolCore) (fits : s.stepRecords.length ≤ 4096) : s.settleSteps =
    { s with links := s.settleSteps.links, slots := s.settleSteps.slots, claims := s.settleSteps.claims
             expiryList := s.settleSteps.expiryList } :=
  (State.settleSteps_induction (P := fun u => u =
      { s with links := u.links, slots := u.slots, claims := u.claims, expiryList := u.expiryList }) core fits rfl
    fun u c r _ _ frame => (u.retire_frame c r).1.trans (by rw [frame])).2.2

/-- R97: the end of the event leaves the slots where the steps that retire have CHANGED set already. -/
theorem State.settleSteps_slots (core : s.PoolCore) (fits : s.stepRecords.length ≤ 4096) (changed : s.InstantChanged) :
    s.settleSteps.slots = s.slots :=
  (State.settleSteps_induction (P := fun u => u.slots = s.slots ∧ u.InstantChanged) core fits ⟨rfl, changed⟩
    fun u c r core found ⟨slots, changed⟩ => by
      obtain ⟨mem, run, instant⟩ := State.instantEntry_spec found
      obtain ⟨claims, -, slots', -⟩ := State.retire_spec (r := r) core.numbers_differ mem
      have kept : (u.retire c r).slots = u.slots := by
        rw [slots', State.setChanged_of_changed (changed c mem r run instant), ite_self]
      have slot : ∀ n, (u.retire c r).slot n = u.slot n := fun n => by unfold State.slot; rw [kept]
      refine ⟨kept.trans slots, fun x hx q runs timeless => ?_⟩
      rw [slot]
      rw [claims, mem_rewritten core.numbers_differ mem (c.retired_same r).number] at hx
      rcases hx with rfl | ⟨hx, -⟩
      · rw [(c.retired_same r).slot]; exact changed c mem r run instant
      · exact changed x hx q runs timeless).2.2.1

/-- R101: what a link hears at the end of the event, of the claims of the pool one by one. -/
def State.settleHeard (s : State) (k : Link) : List Notice :=
  (s.claims.filter (fun c => decide (c.link = k))).flatMap Claim.settleNotices

theorem State.Settled.settleHeard (h : s.Settled) (k : Link) : s.settleHeard k = [] :=
  List.flatMap_eq_nil_iff.mpr fun c hc => Claim.settleNotices_of_settled (h c (List.mem_filter.mp hc).1)

/-- R101: a retirement tells the claim's link its part of what there is to hear. -/
theorem State.PoolCore.retire_heard (core : s.PoolCore) (mem : c ∈ s.claims) (run : c.running = some r)
    (instant : r.step.instant = true) (k : Link) :
    ((if k = c.link then c.retireNotices r else []) ++ (s.retire c r).settleHeard k).Perm (s.settleHeard k) := by
  have same := c.retired_same r
  have before := ((otherClaims_perm core.numbers_differ mem).filter (fun c => decide (c.link = k))).flatMap_right
    Claim.settleNotices
  have after := ((rewritten_perm (d := c.retired r) core.numbers_differ mem same.number).filter
    (fun c => decide (c.link = k))).flatMap_right Claim.settleNotices
  rw [← (State.retire_spec core.numbers_differ mem).1] at after
  refine (after.append_left _).trans (List.Perm.trans (List.Perm.of_eq ?_) before.symm)
  by_cases own : c.link = k
  · rw [List.filter_cons_of_pos (by rw [same.link]; exact decide_eq_true own),
      List.filter_cons_of_pos (by exact decide_eq_true own), List.flatMap_cons, List.flatMap_cons, if_pos own.symm,
      Claim.settleNotices_of_instant run instant, List.append_assoc]
  · rw [List.filter_cons_of_neg (by rw [same.link]; simpa using own), List.filter_cons_of_neg (by simpa using own),
      if_neg (Ne.symm own), List.nil_append]

/-- R97, R101: at the end of the event the links hear of the claims, in no order that is stated here. -/
theorem State.settleSteps_heard (core : s.PoolCore) (fits : s.stepRecords.length ≤ 4096) :
    ∃ ns, Told s s.settleSteps ns ∧ ∀ k, (ns k).Perm (s.settleHeard k) := by
  obtain ⟨-, settled, ns, told, heard⟩ := State.settleSteps_induction (s := s) (P := fun u => ∃ ns, Told s u ns ∧
      ∀ k, (ns k ++ u.settleHeard k).Perm (s.settleHeard k)) core fits ⟨fun _ => [], fun _ => rfl, fun _ => .refl _⟩
    fun u c r core found ⟨ns, told, heard⟩ => by
      obtain ⟨mem, run, instant⟩ := State.instantEntry_spec found
      refine ⟨_, told.trans (State.retire_spec core.numbers_differ mem).2.2.2, fun k => ?_⟩
      rw [List.append_assoc]
      exact ((core.retire_heard mem run instant k).append_left _).trans (heard k)
  refine ⟨ns, told, fun k => ?_⟩
  have all := heard k
  rwa [settled.settleHeard k, List.append_nil] at all

end

end Sys2Proof.Machine
end

section
/-! PROOF. The expiry list at the end of a STEP (R97): the entries of other claims stay, and those of the claims on which the
steps start stand together, in the order of the slots. -/

namespace Sys2Proof.Machine

/-! ### Entries in their places -/

/-- R97: a list in its order, every entry within reach. -/
structure InOrder (now : Reading) (es : List ExpiryEntry) : Prop where
  near : ∀ e ∈ es, ExpiryNear now e.time
  order : es.Pairwise fun d e => timeLeft now d.time ≤ timeLeft now e.time

/-- The entries of claims that expire together. -/
def entriesAt (time : Reading) (ks : List Nat) : List ExpiryEntry := ks.map fun k => { claim := k, time := time }

section
variable {now time : Reading} {es as bs : List ExpiryEntry} {ks js : List Nat} {k : Nat}

theorem mem_entriesAt {e : ExpiryEntry} : e ∈ entriesAt time ks ↔ e.claim ∈ ks ∧ e.time = time := by
  obtain ⟨k, t⟩ := e
  simp only [entriesAt, List.mem_map, ExpiryEntry.mk.injEq]
  constructor
  · rintro ⟨j, hj, rfl, rfl⟩; exact ⟨hj, rfl⟩
  · rintro ⟨hk, rfl⟩; exact ⟨k, hk, rfl, rfl⟩

theorem mem_placed {e : ExpiryEntry} : e ∈ placed now time as es ↔ e ∈ as ∨ e ∈ es := by
  simp only [placed, List.mem_append, List.mem_filter, decide_eq_true_eq]
  have := le_or_gt (timeLeft now e.time) (timeLeft now time)
  tauto

theorem filter_placed (p : ExpiryEntry → Bool) :
    (placed now time as es).filter p = placed now time (as.filter p) (es.filter p) := by
  unfold placed
  simp only [List.filter_append, List.filter_filter, Bool.and_comm]

theorem placed_nil (h : InOrder now es) : placed now time [] es = es := by
  obtain ⟨-, order⟩ := h
  unfold placed
  rw [List.append_nil]
  induction es with
  | nil => rfl
  | cons e es ih =>
    obtain ⟨first, order⟩ := List.pairwise_cons.mp order
    by_cases early : timeLeft now e.time ≤ timeLeft now time
    · rw [List.filter_cons_of_pos (by simpa using early), List.filter_cons_of_neg (by simpa using early), List.cons_append,
        ih order]
    · have late : timeLeft now time < timeLeft now e.time := not_le.mp early
      rw [List.filter_eq_nil_iff.mpr, List.filter_eq_self.mpr, List.nil_append]
      · intro d hd
        rcases List.mem_cons.mp hd with rfl | hd
        · simpa using late
        · simpa using late.trans_le (first d hd)
      · intro d hd
        rcases List.mem_cons.mp hd with rfl | hd
        · simpa using late
        · simpa using late.trans_le (first d hd)

theorem placed_placed : placed now time (entriesAt time js) (placed now time (entriesAt time ks) es) =
    placed now time (entriesAt time (ks ++ js)) es := by
  have early : ∀ ks, (entriesAt time ks).filter (fun d => decide (timeLeft now d.time ≤ timeLeft now time)) =
      entriesAt time ks := fun ks => List.filter_eq_self.mpr fun e he => by rw [(mem_entriesAt.mp he).2]; simp
  have late : ∀ ks, (entriesAt time ks).filter (fun d => decide (timeLeft now time < timeLeft now d.time)) = [] :=
    fun ks => List.filter_eq_nil_iff.mpr fun e he => by rw [(mem_entriesAt.mp he).2]; simp
  have join : entriesAt time (ks ++ js) = entriesAt time ks ++ entriesAt time js := List.map_append
  have apart : ∀ es : List ExpiryEntry, (es.filter (fun d => decide (timeLeft now time < timeLeft now d.time))).filter
      (fun d => decide (timeLeft now d.time ≤ timeLeft now time)) = [] := fun es =>
    List.filter_eq_nil_iff.mpr fun e he => by
      have := of_decide_eq_true (List.mem_filter.mp he).2
      simpa using this
  have apart' : ∀ es : List ExpiryEntry, (es.filter (fun d => decide (timeLeft now d.time ≤ timeLeft now time))).filter
      (fun d => decide (timeLeft now time < timeLeft now d.time)) = [] := fun es =>
    List.filter_eq_nil_iff.mpr fun e he => by
      have := of_decide_eq_true (List.mem_filter.mp he).2
      simpa using this
  have twice : ∀ (p : ExpiryEntry → Bool) (es : List ExpiryEntry), (es.filter p).filter p = es.filter p := fun p es => by
    simp only [List.filter_filter, Bool.and_self]
  unfold placed
  simp only [List.filter_append, early, late, apart, apart', twice, join, List.append_nil, List.nil_append,
    List.append_assoc]

theorem insertEntry_inOrder (h : InOrder now es) (near : ExpiryNear now time) :
    insertEntry ⟨k, time⟩ es = placed now time (entriesAt time [k]) es := by
  rw [insertEntry_placed (e := ⟨k, time⟩) h.near near h.order]
  unfold placed entriesAt
  simp

theorem InOrder.filter (h : InOrder now es) (p : ExpiryEntry → Bool) : InOrder now (es.filter p) :=
  ⟨fun e he => h.near e (List.mem_filter.mp he).1, h.order.filter p⟩

theorem InOrder.place (h : InOrder now es) (near : ExpiryNear now time) (ks : List Nat) :
    InOrder now (placed now time (entriesAt time ks) es) := by
  refine ⟨fun e he => ?_, ?_⟩
  · rcases mem_placed.mp he with he | he
    · rw [(mem_entriesAt.mp he).2]; exact near
    · exact h.near e he
  · unfold placed
    simp only [List.pairwise_append, List.mem_append, List.mem_filter, decide_eq_true_eq]
    refine ⟨⟨h.order.filter _, ?_, ?_⟩, h.order.filter _, ?_⟩
    · refine List.pairwise_of_forall_mem_list fun a ha b hb => ?_
      rw [(mem_entriesAt.mp ha).2, (mem_entriesAt.mp hb).2]
    · rintro a ⟨-, ha⟩ b hb
      rw [(mem_entriesAt.mp hb).2]; exact ha
    · rintro a (⟨-, ha⟩ | ha) b ⟨-, hb⟩
      · exact ha.trans hb.le
      · rw [(mem_entriesAt.mp ha).2]; exact hb.le

/-- R97: the other entries stay where a claim's entry goes in anew. -/
theorem filter_reentered {p : ExpiryEntry → Bool} (run : Option RunningStep) (out : ∀ e : ExpiryEntry, e.claim = k → p e = false) :
    (reentered k run es).filter p = es.filter p := by
  have others : (es.filter (fun e => decide (e.claim ≠ k))).filter p = es.filter p := by
    rw [List.filter_filter]
    refine List.filter_congr fun e _ => ?_
    by_cases own : e.claim = k
    · simp [out e own]
    · simp [own]
  unfold reentered
  split
  · exact others
  · rw [insertEntry_split, List.filter_append, List.filter_cons_of_neg (by simp [out]), ← List.filter_append,
      List.takeWhile_append_dropWhile]
    exact others

end

end Sys2Proof.Machine
end

section
/-! PROOF. The expiry list at the end of a STEP (R97), on: the claims on which a STEP starts its steps retire their steps of no
time in turn, in the order of the slots, and so their entries move on together. -/

namespace Sys2Proof.Machine

/-- R91, R97: when a step of a request expires that starts now. -/
def expiryOf (now : Reading) (x : StepFields) : Reading :=
  now + BitVec.ofNat 32 (min x.duration 600000 + min x.dwell 600000)

/-- A claim runs the first of some steps of a request, started now, and the rest wait; or it rests, where there is none. -/
def Claim.RunsAt (now : Reading) (c : Claim) : List StepFields → Prop
  | [] => c.running = none
  | f :: rest => ∃ r, c.running = some r ∧ r.expiry = expiryOf now f ∧ fieldsOf r.step = lowered f ∧
      c.queue.map fieldsOf = rest.map lowered

/-- The entries of claims that run the first of some steps, gone into a list; none where there is no step. -/
def enter (now : Reading) (ks : List Nat) (es : List ExpiryEntry) : List StepFields → List ExpiryEntry
  | [] => es
  | f :: _ => placed now (expiryOf now f) (entriesAt (expiryOf now f) ks) es

/-- A claim of the pool with a number runs the first of some steps. -/
def State.RunsAt (s : State) (now : Reading) (fields : List StepFields) (k : Nat) : Prop :=
  ∃ c ∈ s.claims, c.number = k ∧ c.RunsAt now fields

section
variable {now : Reading} {x f : StepFields} {fields : List StepFields} {ks js : List Nat} {k : Nat} {es : List ExpiryEntry}

theorem instant_of_lowered {y : Step} (copy : fieldsOf y = lowered x) : y.instant = noTime x := by
  have duration : y.duration = min x.duration 600000 := congrArg StepFields.duration copy
  have dwell : y.dwell = min x.dwell 600000 := congrArg StepFields.dwell copy
  unfold Step.instant noTime
  congr 1 <;> simp only [decide_eq_decide] <;> omega

theorem expiryOf_near (now : Reading) (x : StepFields) : ExpiryNear now (expiryOf now x) ∧ 0 ≤ timeLeft now (expiryOf now x) := by
  have left : timeLeft now (expiryOf now x) = (min x.duration 600000 + min x.dwell 600000 : Nat) := by
    unfold timeLeft expiryOf
    have split : now + BitVec.ofNat 32 (min x.duration 600000 + min x.dwell 600000) - now =
        BitVec.ofNat 32 (min x.duration 600000 + min x.dwell 600000) := by bv_omega
    rw [split, BitVec.toInt_eq_toNat_cond, BitVec.toNat_ofNat]
    split <;> omega
  unfold ExpiryNear
  omega

theorem expiryOf_of_noTime (h : noTime x = true) : expiryOf now x = now := by
  simp only [noTime, Bool.and_eq_true, decide_eq_true_eq] at h
  simp [expiryOf, h]

theorem InOrder.enter (h : InOrder now es) (ks : List Nat) (fields : List StepFields) :
    InOrder now (enter now ks es fields) := by
  cases fields with
  | nil => exact h
  | cons f rest => exact h.place (expiryOf_near now f).1 ks

theorem enter_nil (h : InOrder now es) (fields : List StepFields) : enter now [] es fields = es := by
  cases fields with
  | nil => rfl
  | cons f rest => exact placed_nil h

/-- An entry leaves, and goes in anew where it belongs. -/
theorem filter_enter {p : ExpiryEntry → Bool} {q : Nat → Bool} (only : ∀ k t, p ⟨k, t⟩ = q k) :
    (enter now ks es fields).filter p = enter now (ks.filter q) (es.filter p) fields := by
  cases fields with
  | nil => rfl
  | cons f rest =>
    unfold enter
    rw [filter_placed]
    congr 1
    unfold entriesAt
    rw [List.filter_map]
    congr 1
    exact List.filter_congr fun k _ => only k _

/-- The first claim of those whose step has no time comes before all but some entries of other claims. -/
theorem enter_split {later : List StepFields} (timeless : noTime f = true) :
    ∃ as bs, enter now js (enter now (k :: ks) es (f :: fields)) later = as ++ ⟨k, now⟩ :: bs ∧ ∀ e ∈ as, e ∈ es := by
  have inner : ∃ as bs, enter now (k :: ks) es (f :: fields) = as ++ ⟨k, now⟩ :: bs ∧ ∀ e ∈ as, e ∈ es := by
    dsimp only [enter, placed]
    rw [expiryOf_of_noTime timeless, entriesAt, List.map_cons, List.append_assoc, List.cons_append]
    exact ⟨_, _, rfl, fun e he => (List.mem_filter.mp he).1⟩
  obtain ⟨as, bs, inner, others⟩ := inner
  rw [inner]
  cases later with
  | nil => exact ⟨as, bs, rfl, others⟩
  | cons g rest =>
    have early : timeLeft now now ≤ timeLeft now (expiryOf now g) := by
      rw [timeLeft_self]; exact (expiryOf_near now g).2
    dsimp only [enter, placed]
    simp only [List.filter_append, List.filter_cons, early, decide_true, if_true, List.append_assoc, List.cons_append]
    exact ⟨_, _, rfl, fun e he => others e (List.mem_filter.mp he).1⟩

end

/-- R97: the entry of a claim goes in anew when it has moved on to the first of the later steps. -/
theorem reentered_enter {now : Reading} {js ks : List Nat} {k : Nat} {es : List ExpiryEntry} {run : Option RunningStep}
    {fields later : List StepFields} (order : InOrder now es) (js_out : k ∉ js) (ks_out : k ∉ ks)
    (es_out : ∀ e ∈ es, e.claim ≠ k)
    (run_at : match later with
      | [] => run = none
      | g :: _ => ∃ r, run = some r ∧ r.expiry = expiryOf now g) :
    reentered k run (enter now js (enter now (k :: ks) es fields) later) =
      enter now (js ++ [k]) (enter now ks es fields) later := by
  have others : (enter now js (enter now (k :: ks) es fields) later).filter (fun e => decide (e.claim ≠ k)) =
      enter now js (enter now ks es fields) later := by
    rw [filter_enter (q := fun j => decide (j ≠ k)) fun _ _ => rfl,
      filter_enter (q := fun j => decide (j ≠ k)) fun _ _ => rfl, List.filter_cons_of_neg (by simp)]
    have keep : ∀ is : List Nat, k ∉ is → is.filter (fun j => decide (j ≠ k)) = is := fun is out =>
      List.filter_eq_self.mpr fun j hj => decide_eq_true fun e => out (e ▸ hj)
    rw [keep js js_out, keep ks ks_out, List.filter_eq_self.mpr fun e he => decide_eq_true (es_out e he)]
  unfold reentered
  cases later with
  | nil => rw [run_at]; exact others
  | cons g rest =>
    obtain ⟨r, rfl, expiry⟩ := run_at
    dsimp only
    rw [others, expiry, insertEntry_inOrder ((order.enter ks fields).enter js (g :: rest)) (expiryOf_near now g).1]
    exact placed_placed

end Sys2Proof.Machine
end

section
/-! PROOF. The expiry list at the end of a STEP (R97), on: the turns in which the steps of no time retire. -/

namespace Sys2Proof.Machine

section
variable {u : State} {now : Reading} {k : Nat} {d : Claim} {r : RunningStep}

/-- R97: the first entry of a step of no time, behind entries of other claims. -/
theorem State.PoolCore.instantEntry_eq (core : u.PoolCore) {as bs : List ExpiryEntry} (entries : u.expiryList = as ++ ⟨k, now⟩ :: bs)
    (mem : d ∈ u.claims) (number : d.number = k) (run : d.running = some r) (instant : r.step.instant = true)
    (others : ∀ e ∈ as, ∀ c ∈ u.claims, c.number = e.claim → ∀ q, c.running = some q → q.step.instant = false) :
    u.instantEntry = some (d, r) := by
  unfold State.instantEntry
  rw [entries, List.findSome?_append, List.findSome?_eq_none_iff.mpr, Option.none_or, List.findSome?_cons,
    core.claim_iff.mpr ⟨mem, number⟩]
  · simp [run, instant]
  · intro e he
    cases found : u.claim e.claim with
    | none => rfl
    | some c =>
      obtain ⟨hc, at_⟩ := core.claim_iff.mp found
      cases running : c.running with
      | none => simp [running]
      | some q => simp [running, others e he c hc at_ q running]

/-- R98: when a step of no time retires, its claim runs the next of the steps of the request, or rests. -/
theorem Claim.RunsAt.retired {f : StepFields} {rest : List StepFields} (h : d.RunsAt now (f :: rest)) (run : d.running = some r)
    (timeless : noTime f = true) : (d.retired r).RunsAt now rest := by
  obtain ⟨q, run', expiry, copy, queue⟩ := h
  obtain rfl := Option.some.inj (run.symm.trans run')
  have instant := (instant_of_lowered copy).trans timeless
  rw [expiryOf_of_noTime timeless] at expiry
  have follows := d.queueAtRetirement_of_instant instant
  unfold Claim.retired
  rw [follows]
  cases rest with
  | nil =>
    rw [List.map_eq_nil_iff.mp (queue : d.queue.map fieldsOf = [])]
    rfl
  | cons g later =>
    obtain ⟨y, ys, eq, head, tail⟩ := List.map_eq_cons_iff.mp (queue : d.queue.map fieldsOf = lowered g :: later.map lowered)
    rw [eq]
    obtain ⟨running, waiting, -⟩ := Claim.lowChecked_steps (d.followed r y ys)
    refine ⟨_, running, ?_, head, ?_⟩
    · have duration : y.duration = min g.duration 600000 := congrArg StepFields.duration head
      have dwell : y.dwell = min g.dwell 600000 := congrArg StepFields.dwell head
      unfold Step.runFrom expiryOf
      rw [expiry, duration, dwell]
    · rw [waiting]; exact tail

/-- The claims of a STEP on their way through its steps of no time: those of `ks` run the first of the steps `fields` that are
left, those of `js` have moved on to the next, and the entries stand accordingly. -/
structure State.InTurn (u : State) (now : Reading) (numbers : List Nat) (others : List ExpiryEntry) (fields : List StepFields)
    (js ks : List Nat) : Prop where
  parts : js ++ ks = numbers
  waiting : ∀ k ∈ ks, u.RunsAt now fields k
  served : ∀ k ∈ js, u.RunsAt now fields.tail k
  entries : u.expiryList = enter now js (enter now ks others fields) fields.tail
  turn : js = [] ∨ ks ≠ [] ∧ ∃ f rest, fields = f :: rest ∧ noTime f = true

/-- R97: only the claims of a STEP run steps of no time, and they run them in turn. -/
def State.Settling (u : State) (now : Reading) (numbers : List Nat) (others : List ExpiryEntry) (fields : List StepFields) :
    Prop :=
  (∀ c ∈ u.claims, ∀ r, c.running = some r → r.step.instant = true → c.number ∈ numbers) ∧
    ∃ left js ks, u.InTurn now numbers others left js ks ∧
      left.find? (fun x => !noTime x) = fields.find? (fun x => !noTime x)

variable {numbers : List Nat} {others : List ExpiryEntry} {fields : List StepFields} {c : Claim}

/-- A claim keeps its turn when another is rewritten. -/
theorem State.RunsAt.rewrite {v : State} (h : u.RunsAt now fields k) (core : u.PoolCore) (mem : c ∈ u.claims)
    (number : d.number = c.number) (claims : v.claims = rewritten d u.claims) (ne : k ≠ c.number) : v.RunsAt now fields k := by
  obtain ⟨x, hx, at_, runs⟩ := h
  refine ⟨x, ?_, at_, runs⟩
  rw [claims, mem_rewritten core.numbers_differ mem number]
  exact .inr ⟨hx, at_ ▸ ne⟩

/-- R97: the claims of a STEP retire their steps of no time in turn. -/
theorem State.Settling.retire (h : u.Settling now numbers others fields) (core : u.PoolCore)
    (order : InOrder now others) (apart : numbers.Nodup) (out : ∀ e ∈ others, e.claim ∉ numbers)
    (found : u.instantEntry = some (c, r)) : (u.retire c r).Settling now numbers others fields := by
  obtain ⟨only, left, js, ks, ⟨parts, waiting, served, entries, turn⟩, find⟩ := h
  obtain ⟨mem, run, instant⟩ := State.instantEntry_spec found
  have own := only c mem r run instant
  obtain ⟨claims, entries', -, -⟩ := State.retire_spec (r := r) core.numbers_differ mem
  have same := c.retired_same r
  cases left with
  | nil =>
    have none : js = [] := turn.resolve_right fun ⟨_, f, rest, no, _⟩ => nomatch no
    rw [none, List.nil_append] at parts
    obtain ⟨x, hx, at_, rests⟩ := waiting c.number (parts ▸ own)
    rw [core.number_inj hx mem at_] at rests
    rw [Claim.RunsAt, run] at rests
    cases rests
  | cons f rest =>
    have timeless : noTime f = true := by
      rcases turn with none | ⟨-, f', rest', eq, timeless⟩
      · rw [none, List.nil_append] at parts
        obtain ⟨x, hx, at_, q, run', -, copy, -⟩ := waiting c.number (parts ▸ own)
        rw [core.number_inj hx mem at_, run] at run'
        rw [← Option.some.inj run'] at copy
        exact (instant_of_lowered copy).symm.trans instant
      · obtain ⟨rfl, -⟩ := List.cons.inj eq
        exact timeless
    obtain ⟨k, ks, rfl⟩ : ∃ k ks', ks = k :: ks' := by
      refine List.exists_cons_of_ne_nil fun none => ?_
      rcases turn with none' | ⟨some, -⟩
      · rw [none, none'] at parts
        rw [← parts] at own
        cases own
      · exact some none
    have js_out : k ∉ js := fun hk => by
      rw [← parts] at apart
      exact (List.nodup_append.mp apart).2.2 k hk k List.mem_cons_self rfl
    have ks_out : k ∉ ks := fun hk => by
      rw [← parts] at apart
      exact (List.nodup_cons.mp (List.nodup_append.mp apart).2.1).1 hk
    have es_out : ∀ e ∈ others, e.claim ≠ k := fun e he eq => out e he (by rw [eq, ← parts]; simp)
    obtain ⟨d, hd, number, runs⟩ := waiting k List.mem_cons_self
    have first : ∃ q, u.instantEntry = some (d, q) := by
      obtain ⟨q, run', -, copy, -⟩ := id runs
      obtain ⟨as, bs, split, front⟩ := enter_split (now := now) (js := js) (k := k) (ks := ks) (es := others)
        (fields := rest) (later := rest) timeless
      refine ⟨q, core.instantEntry_eq (entries.trans split) hd number run' ((instant_of_lowered copy).trans timeless)
        fun e he x hx at_ q' run'' => Bool.eq_false_iff.mpr fun instant' => out e (front e he) ?_⟩
      rw [← at_]
      exact only x hx q' run'' instant'
    obtain ⟨q, first⟩ := first
    obtain ⟨rfl, rfl⟩ := Prod.mk.inj (Option.some.inj (found.symm.trans first))
    have runs' := runs.retired run timeless
    have moved : (u.retire c r).RunsAt now rest k := by
      refine ⟨c.retired r, ?_, same.number.trans number, runs'⟩
      rw [claims, mem_rewritten core.numbers_differ mem same.number]
      exact .inl rfl
    have kept : ∀ {j fs}, j ≠ k → u.RunsAt now fs j → (u.retire c r).RunsAt now fs j := fun ne runs =>
      State.RunsAt.rewrite runs core mem same.number claims (number ▸ ne)
    have at_now : (u.retire c r).expiryList = enter now (js ++ [k]) (enter now ks others (f :: rest)) rest := by
      rw [entries', entries, number]
      refine reentered_enter order js_out ks_out es_out ?_
      cases rest with
      | nil => exact runs'
      | cons g later =>
        obtain ⟨q, run', expiry, -⟩ := runs'
        exact ⟨q, run', expiry⟩
    have only' : ∀ x ∈ (u.retire c r).claims, ∀ q, x.running = some q → q.step.instant = true → x.number ∈ numbers :=
      fun x hx q run' instant' => by
        rw [claims, mem_rewritten core.numbers_differ mem same.number] at hx
        rcases hx with rfl | ⟨hx, -⟩
        · rw [same.number]; exact own
        · exact only x hx q run' instant'
    have served' : ∀ j ∈ js ++ [k], (u.retire c r).RunsAt now rest j := fun j hj => by
      rcases List.mem_append.mp hj with hj | hj
      · exact kept (fun e => js_out (e ▸ hj)) (served j hj)
      · rw [List.mem_singleton.mp hj]; exact moved
    refine ⟨only', ?_⟩
    cases ks with
    | nil =>
      have find' : rest.find? (fun x => !noTime x) = fields.find? (fun x => !noTime x) := by
        rw [← find, List.find?_cons_of_neg (by simp [timeless])]
      refine ⟨rest, [], js ++ [k], ⟨parts, served', fun j hj => (nomatch hj), ?_, .inl rfl⟩, find'⟩
      rw [at_now, enter_nil order, enter_nil (order.enter _ _)]
    | cons k' ks =>
      refine ⟨f :: rest, js ++ [k], k' :: ks, ⟨?_, fun j hj => kept (fun e => ks_out (e ▸ hj)) (waiting j (List.mem_cons_of_mem k hj)),
        served', at_now, .inr ⟨List.cons_ne_nil _ _, f, rest, rfl, timeless⟩⟩, find⟩
      rw [List.append_assoc]; exact parts

/-- R97: when no claim runs a step of no time any more, the claims of the STEP run its first step of some time together. -/
theorem State.Settling.entries (h : u.Settling now numbers others fields) (order : InOrder now others) (settled : u.Settled) :
    u.expiryList = match fields.find? (fun x => !noTime x) with
      | none => others
      | some x => placed now (expiryOf now x) (entriesAt (expiryOf now x) numbers) others := by
  obtain ⟨-, left, js, ks, ⟨parts, waiting, served, entries, turn⟩, find⟩ := h
  have timed : ∀ f rest, left = f :: rest → noTime f = true → ks = [] := fun f rest eq timeless => by
    refine List.eq_nil_iff_forall_not_mem.mpr fun k hk => ?_
    obtain ⟨c, hc, -, runs⟩ := waiting k hk
    rw [eq] at runs
    obtain ⟨r, run, -, copy, -⟩ := runs
    have instant := (instant_of_lowered copy).trans timeless
    rw [settled c hc r run] at instant
    cases instant
  have none : js = [] := turn.resolve_right fun ⟨filled, f, rest, eq, timeless⟩ => filled (timed f rest eq timeless)
  rw [none, List.nil_append] at parts
  rw [none, enter_nil (order.enter _ _), parts] at entries
  rw [entries, ← find]
  cases left with
  | nil => rfl
  | cons f rest =>
    by_cases timeless : noTime f = true
    · have empty : numbers = [] := parts ▸ timed f rest rfl timeless
      rw [empty, enter_nil order]
      split
      · rfl
      · exact (placed_nil order).symm
    · rw [List.find?_cons_of_pos (by simpa using timeless)]
      rfl

/-- R97: the entries of other claims stay when steps of no time retire. -/
theorem State.retire_others (core : u.PoolCore) (mem : c ∈ u.claims) {p : ExpiryEntry → Bool}
    (out : ∀ e : ExpiryEntry, e.claim = c.number → p e = false) : (u.retire c r).expiryList.filter p = u.expiryList.filter p := by
  rw [(State.retire_spec core.numbers_differ mem).2.1]
  exact filter_reentered _ out

end

end Sys2Proof.Machine
end

section
/-! PROOF. What a STEP leaves of the link's claim on a slot (R94 to R101), in the terms of its request. -/

namespace Sys2Proof.Machine

section
variable {x : StepFields} {rest : List StepFields} {y : Step} {ys : List Step}

theorem settled_copies (head : fieldsOf y = lowered x) (tail : ys.map fieldsOf = rest.map lowered) :
    fieldsOf (settled Step.instant y ys).1 = lowered (settled noTime x rest).1 ∧
      (settled Step.instant y ys).2.map fieldsOf = (settled noTime x rest).2.map lowered := by
  induction ys generalizing y x rest with
  | nil =>
    rw [List.map_eq_nil_iff.mp tail.symm]
    exact ⟨head, rfl⟩
  | cons z zs ih =>
    obtain ⟨w, ws, rfl, first, later⟩ := List.map_eq_cons_iff.mp tail.symm
    unfold settled
    rw [instant_of_lowered first.symm]
    split
    · exact ih first.symm later.symm
    · exact ⟨head, tail⟩

theorem lowNotices_congr {α β : Type} {mode : Mode} {low : Nat} {armed : Bool} {n : SlotNo} {g : Group} {as as' : List α}
    {bs bs' : List β} (waiting : as.length = bs.length) (left : as'.length = bs'.length) :
    lowNotices mode low armed n g as as' = lowNotices mode low armed n g bs bs' := by
  have empty : as = [] ↔ bs = [] := by rw [← List.length_eq_zero_iff, waiting, List.length_eq_zero_iff]
  unfold lowNotices
  simp only [waiting, left, ne_eq, empty]

/-- R97, R101: what a claim's link hears when the steps of a request start on the claim. -/
def Claim.heardOf (d : Claim) (x : StepFields) (rest : List StepFields) : List Notice :=
  if noTime x then lowNotices d.mode d.lowMark d.armed d.slot d.group rest (settled noTime x rest).2 else []

/-- R95 to R101: what is left of a claim `d` on which the first step of a request has started, at the end of the event. -/
structure Claim.Outcome (d c : Claim) (now : Reading) (value : Value) (x : StepFields) (rest : List StepFields) : Prop where
  same : d.Same c
  armed : c.armed = (d.armed && (d.heardOf x rest).isEmpty)
  timed : noTime x = false → c.rest = d.rest ∧ c.queue.map fieldsOf = rest.map lowered ∧
    ∃ r, c.running = some r ∧ fieldsOf r.step = lowered x ∧ r.adjusted = x.curve.adjust false x.tie ∧
      r.startTime = now ∧ r.expiry = expiryOf now x ∧ r.startValue = value
  timeless : noTime x = true → match (settled noTime x rest).2 with
    | [] => c.running = none ∧ c.queue = [] ∧ c.rest = (settled noTime x rest).1.target
    | y :: more => c.rest = d.rest ∧ c.queue.map fieldsOf = more.map lowered ∧
      ∃ r, c.running = some r ∧ fieldsOf r.step = lowered y ∧
        r.adjusted = y.curve.adjust (settled noTime x rest).1.tie y.tie ∧ r.startTime = now ∧ r.expiry = expiryOf now y ∧
        r.startValue = (settled noTime x rest).1.target

theorem runFrom_copy {value : Value} {now : Reading} {dropIn : Bool} (copy : fieldsOf y = lowered x) :
    fieldsOf (y.runFrom value now dropIn).step = lowered x ∧
      (y.runFrom value now dropIn).adjusted = x.curve.adjust dropIn x.tie ∧
      (y.runFrom value now dropIn).startTime = now ∧ (y.runFrom value now dropIn).expiry = expiryOf now x ∧
        (y.runFrom value now dropIn).startValue = value := by
  have duration : y.duration = min x.duration 600000 := congrArg StepFields.duration copy
  have dwell : y.dwell = min x.dwell 600000 := congrArg StepFields.dwell copy
  have curve : y.curve = x.curve := congrArg StepFields.curve copy
  have tie : y.tie = x.tie := congrArg StepFields.tie copy
  refine ⟨copy, ?_, rfl, ?_, rfl⟩
  · unfold Step.runFrom; rw [curve, tie]
  · unfold Step.runFrom expiryOf; rw [duration, dwell]

variable {d : Claim} {value : Value} {now : Reading}

theorem Claim.settleNotices_started (run : d.running = some (y.runFrom value now false)) (queue : d.queue = ys)
    (head : fieldsOf y = lowered x) (tail : ys.map fieldsOf = rest.map lowered) : d.settleNotices = d.heardOf x rest := by
  have instant : y.instant = noTime x := instant_of_lowered head
  have length : ys.length = rest.length := by simpa using congrArg List.length tail
  have left : (settled Step.instant y ys).2.length = (settled noTime x rest).2.length := by
    simpa using congrArg List.length (settled_copies head tail).2
  unfold Claim.heardOf
  cases timeless : noTime x with
  | false => exact Claim.settleNotices_of_timed run (instant.trans timeless)
  | true => exact (left_of_instant run (instant.trans timeless) queue).2.trans (lowNotices_congr length left)

/-- R95 to R101: the claim at the end of the event. -/
theorem Claim.ended_started (run : d.running = some (y.runFrom value now false)) (queue : d.queue = ys)
    (head : fieldsOf y = lowered x) (tail : ys.map fieldsOf = rest.map lowered) :
    d.Outcome d.ended now value x rest := by
  have heard := Claim.settleNotices_started run queue head tail
  have instant : y.instant = noTime x := instant_of_lowered head
  cases timeless : noTime x with
  | false =>
    have timed : (y.runFrom value now false).step.instant = false := instant.trans timeless
    have silent : d.heardOf x rest = [] := by unfold Claim.heardOf; rw [timeless]; rfl
    rw [Claim.ended_of_timed run timed]
    refine ⟨.refl d, by simp [silent], fun _ => ⟨rfl, queue ▸ tail, _, run, runFrom_copy head⟩, fun no => ?_⟩
    rw [timeless] at no
    cases no
  | true =>
    obtain ⟨⟨same, queue', at_rest, runs, armed⟩, -⟩ := left_of_instant run (instant.trans timeless) queue
    rw [Step.runFrom_expiry_of_instant (instant.trans timeless)] at runs
    have copies : fieldsOf (settled Step.instant y ys).1 = lowered (settled noTime x rest).1 ∧
      (settled Step.instant y ys).2.map fieldsOf = (settled noTime x rest).2.map lowered := settled_copies head tail
    have step : (y.runFrom value now false).step = y := rfl
    rw [step] at queue' at_rest runs
    generalize settled Step.instant y ys = left at *
    obtain ⟨first, later⟩ := copies
    have target : left.1.target = (settled noTime x rest).1.target := congrArg StepFields.target first
    have tie : left.1.tie = (settled noTime x rest).1.tie := congrArg StepFields.tie first
    refine ⟨same, heard ▸ armed, fun no => ?_, fun _ => ?_⟩
    · rw [timeless] at no
      cases no
    · cases remain : (settled noTime x rest).2 with
      | nil =>
        rw [remain] at later
        have none := List.map_eq_nil_iff.mp later
        obtain ⟨rests, value'⟩ := at_rest none
        exact ⟨rests, by rw [queue', none]; rfl, value'.trans target⟩
      | cons z more =>
        rw [remain] at later
        obtain ⟨w, ws, eq, copy, copies⟩ := List.map_eq_cons_iff.mp later
        obtain ⟨kept, running⟩ := runs w ws eq
        rw [target, tie] at running
        exact ⟨kept, by rw [queue', eq]; exact copies, _, running, runFrom_copy copy⟩

end

end Sys2Proof.Machine
end

section
/-! PROOF. A STEP that passes its tests (R93): the records it brings into use, and what its slots leave of the state before
the end of the event. -/

namespace Sys2Proof.Machine

section
variable {s t : State} {l : Link} {g : Group} {slots : List SlotNo}

/-! ### The claims of a link on a group in a set of slots -/

theorem State.PoolCore.mem_claimsIn (core : s.PoolCore) {c : Claim} :
    c ∈ s.claimsIn l g slots ↔ c ∈ s.claims ∧ ∃ n ∈ slots, c.place = (l, n, g) := by
  unfold State.claimsIn
  rw [List.mem_filterMap]
  constructor
  · rintro ⟨n, hn, found⟩
    obtain ⟨mem, place⟩ := core.claimOf_iff.mp found
    exact ⟨mem, n, hn, place⟩
  · rintro ⟨mem, n, hn, place⟩
    exact ⟨n, hn, core.claimOf_iff.mpr ⟨mem, place⟩⟩

theorem Claim.offSlots_iff {c : Claim} : c.offSlots l slots g = true ↔ ¬∃ n ∈ slots, c.place = (l, n, g) := by
  unfold Claim.offSlots Claim.off
  simp

/-- The claims of the pool are those elsewhere and those of the link in the slots. -/
theorem State.PoolCore.claims_split (core : s.PoolCore) (nodup : slots.Nodup) :
    s.claims.Perm (s.claims.filter (Claim.offSlots l slots g) ++ s.claimsIn l g slots) := by
  have all := List.Nodup.of_map _ core.numbers_differ
  have apart : (s.claimsIn l g slots).Nodup := by
    refine nodup.filterMap fun n m c hc hd => ?_
    have one := (core.claimOf_iff.mp hc).2
    have two := (core.claimOf_iff.mp hd).2
    exact congrArg (fun p : Link × SlotNo × Group => p.2.1) (one.symm.trans two)
  refine (List.filter_append_perm (Claim.offSlots l slots g) s.claims).symm.trans (.append_left _ ?_)
  refine (List.perm_ext_iff_of_nodup (all.filter _) apart).mpr fun c => ?_
  rw [List.mem_filter, core.mem_claimsIn, Bool.not_eq_true', ← Bool.not_eq_true, Claim.offSlots_iff, not_not]

theorem State.recordsOf_eq (s : State) : s.recordsOf l g slots = (s.claimsIn l g slots).flatMap Claim.records := by
  unfold State.recordsOf State.claimsIn
  induction slots with
  | nil => rfl
  | cons n ns ih =>
    rw [List.flatMap_cons, List.filterMap_cons, ih]
    cases s.claimOf l n g <;> rfl

theorem State.PoolCore.records_split (core : s.PoolCore) (nodup : slots.Nodup) : s.stepRecords.Perm
    ((s.claims.filter (Claim.offSlots l slots g)).flatMap Claim.records ++ s.recordsOf l g slots) := by
  rw [State.recordsOf_eq, ← List.flatMap_append]
  exact (core.claims_split nodup).flatMap_right Claim.records

/-! ### The tests of a STEP (R93) -/

/-- R93: the pools and the pending queues have room for a STEP of `count` steps. -/
structure State.StepCovered (s : State) (q : StepRequest) (slots : List SlotNo) (count : Nat) : Prop where
  room : s.HasRoom q.link q.group slots
  records : s.stepRecords.length + count * slots.length ≤
    4096 + if q.option = .replace then (s.recordsOf q.link q.group slots).length else 0
  queues : s.QueuesFit q slots count

variable {q : StepRequest} {count : Nat}

theorem State.queuesFit_iff : s.QueuesFit q slots count ↔ ¬(q.option = .append ∧ slots.any (fun n =>
    match s.claimOf q.link n q.group with
    | none => false
    | some c => c.running.isSome && decide (Config.pendingQueueSize < c.queue.length + count))) := by
  have size : Config.pendingQueueSize = 8 := rfl
  unfold State.QueuesFit
  cases option : q.option with
  | replace => simp
  | append =>
    simp only [reduceCtorEq, false_or, true_and, List.any_eq_true, not_exists, not_and]
    refine forall₂_congr fun n _ => ?_
    cases s.claimOf q.link n q.group with
    | none => simp
    | some c => simp [size]

theorem State.stepTest_none_iff (p : s.PoolsSound) : s.stepTest q slots count = none ↔ s.StepCovered q slots count := by
  have claims := p.claims_fit
  have steps := p.steps_fit
  have size : Config.claimRecords = 1024 := rfl
  have size' : Config.stepRecords = 4096 := rfl
  have room : s.HasRoom q.link q.group slots ↔ ¬ s.freeClaims < (s.unclaimed q.link q.group slots).length :=
    State.hasRoom_iff p.core
  have all : s.StepCovered q slots count ↔ s.HasRoom q.link q.group slots ∧
      s.stepRecords.length + count * slots.length ≤
        4096 + (if q.option = .replace then (s.recordsOf q.link q.group slots).length else 0) ∧
      s.QueuesFit q slots count := ⟨fun ⟨room, records, queues⟩ => ⟨room, records, queues⟩,
    fun ⟨room, records, queues⟩ => ⟨room, records, queues⟩⟩
  rw [all, room, State.queuesFit_iff]
  unfold State.stepTest State.freeSteps
  dsimp only
  generalize (if q.option = .replace then (s.recordsOf q.link q.group slots).length else 0) = returned
  have free : ¬Config.stepRecords - s.stepRecords.length + returned < count * slots.length ↔
      s.stepRecords.length + count * slots.length ≤ 4096 + returned := by omega
  rw [← free]
  split
  · exact iff_of_false (by simp) fun h => h.1 ‹_›
  · split
    · exact iff_of_false (by simp) fun h => h.2.1 ‹_›
    · split
      · exact iff_of_false (by simp) fun h => h.2.2 ‹_›
      · exact iff_of_true rfl ⟨‹_›, ‹_›, ‹_›⟩

/-! ### The records brought into use (R90, R93) -/

theorem freeRecords_lt (used : List Nat) (k : Nat) : ∀ n ∈ freeRecords used k, n < used.length + k := by
  induction k generalizing used with
  | zero => exact fun n hn => nomatch hn
  | succ k ih =>
    intro n hn
    rcases List.mem_cons.mp hn with rfl | hn
    · have := (firstFree_free used).2.2
      omega
    · have := ih _ n hn
      rw [List.length_cons] at this
      omega

/-- R93: the records in use that a STEP does not return. -/
def State.keptRecords (s : State) (q : StepRequest) (slots : List SlotNo) : List Nat :=
  (s.claims.filter (Claim.offSlots q.link slots q.group)).flatMap Claim.records ++
    if q.option = .replace then [] else s.recordsOf q.link q.group slots

theorem State.PoolCore.keptRecords_length (core : s.PoolCore) (nodup : slots.Nodup) : (s.keptRecords q slots).length +
    (if q.option = .replace then (s.recordsOf q.link q.group slots).length else 0) = s.stepRecords.length := by
  rw [(core.records_split (l := q.link) (g := q.group) nodup).length_eq]
  unfold State.keptRecords
  split <;> simp

theorem State.PoolCore.keptRecords_sublist (core : s.PoolCore) (nodup : slots.Nodup) :
    (s.keptRecords q slots).Subperm s.stepRecords := by
  refine List.Subperm.trans ?_ (core.records_split (l := q.link) (g := q.group) nodup).symm.subperm
  unfold State.keptRecords
  split
  · rw [List.append_nil]; exact (List.sublist_append_left _ _).subperm
  · exact .refl _

/-- R93: the records taken are none of those that the STEP does not return. -/
theorem State.PoolCore.keptRecords_used (core : s.PoolCore) (nodup : slots.Nodup) (differ : s.stepRecords.Nodup) :
    (s.stepRecords.filter (fun k => decide (k ∉ if q.option = .replace then s.recordsOf q.link q.group slots else []))).Perm
      (s.keptRecords q slots) := by
  have split := core.records_split (l := q.link) (g := q.group) nodup
  unfold State.keptRecords
  by_cases replace : q.option = .replace
  · simp only [if_pos replace, List.append_nil]
    have apart := (List.nodup_append.mp (split.nodup_iff.mp differ)).2.2
    refine (split.filter _).trans (List.Perm.of_eq ?_)
    have none : (s.recordsOf q.link q.group slots).filter (fun k => decide (k ∉ s.recordsOf q.link q.group slots)) = [] :=
      List.filter_eq_nil_iff.mpr fun k hk => by simpa using hk
    rw [List.filter_append, none, List.append_nil]
    exact List.filter_eq_self.mpr fun k hk => decide_eq_true (p := k ∉ _) fun h => apart k hk k h rfl
  · simp only [if_neg replace]
    rw [List.filter_eq_self.mpr fun k _ => by simp]
    exact split

variable {fields : List StepFields} {lost : List (Link × SlotNo)}

/-- R90: the records in use after the slots of a STEP. -/
theorem Passage.step_records (passage : Passage (StepServed q fields) slots s t lost) (core : s.PoolCore) (nodup : slots.Nodup)
    {records : List Nat} (used : (t.recordsOf q.link q.group slots).Perm
      ((if q.option = .replace then [] else s.recordsOf q.link q.group slots) ++ records)) :
    t.stepRecords.Perm (s.keptRecords q slots ++ records) := by
  have after := (passage.core StepServed.taken core).records_split (l := q.link) (g := q.group) nodup
  rw [passage.others StepServed.taken] at after
  unfold State.keptRecords
  rw [List.append_assoc]
  exact after.trans (used.append_left _)

/-- R90, R93: the slots of a STEP that passes its tests, served with free records: the step pool holds them, each once. -/
theorem State.stepSlots_covered (core : s.PoolCore) (covered : s.StepCovered q slots fields.length) (nodup : slots.Nodup)
    (low : q.LowFits) (filled : fields ≠ []) (few : fields.length ≤ 8) {done : State × List (Link × SlotNo)}
    (hdone : done = State.stepSlots q fields slots (s.recordsFor q slots fields.length) s) :
    Passage (StepServed q fields) slots s done.1 done.2 ∧ done.1.stepRecords.length ≤ 4096 ∧
      (s.RecordsSound → done.1.RecordsSound) := by
  obtain ⟨length, apart, free⟩ := freeRecords_spec (s.stepRecords.filter (fun k => decide (k ∉
    if q.option = .replace then s.recordsOf q.link q.group slots else []))) (fields.length * slots.length)
  have least := freeRecords_lt (s.stepRecords.filter (fun k => decide (k ∉
    if q.option = .replace then s.recordsOf q.link q.group slots else []))) (fields.length * slots.length)
  obtain ⟨passage, used⟩ := State.stepSlots_passage (s := s) (q := q) (fields := fields) (ns := slots)
    (records := s.recordsFor q slots fields.length) core covered.room nodup low covered.queues filled few length
  rw [← hdone] at passage used
  have after := passage.step_records core nodup used
  have room := covered.records
  have kept := core.keptRecords_length (q := q) nodup
  have size : (s.recordsFor q slots fields.length).length = fields.length * slots.length := length
  refine ⟨passage, ?_, fun ⟨differ, fit⟩ => ?_⟩
  · rw [after.length_eq, List.length_append, size]
    omega
  · have same := core.keptRecords_used (q := q) nodup differ
    obtain ⟨list, permuted, less⟩ := core.keptRecords_sublist (q := q) nodup
    refine ⟨after.nodup_iff.mpr (List.nodup_append.mpr ⟨permuted.nodup_iff.mp (differ.sublist less), apart, ?_⟩), fun k hk => ?_⟩
    · rintro j hj k hk rfl
      exact free j hk (same.mem_iff.mpr hj)
    · rcases List.mem_append.mp (after.mem_iff.mp hk) with hk | hk
      · exact fit k (less.subset (permuted.mem_iff.mpr hk))
      · have := least k hk
        rw [same.length_eq] at this
        omega

end

end Sys2Proof.Machine
end

section
/-! PROOF. The slots of a STEP (R94 to R97): the claims on which its first step starts, what their links are to hear, and the
expiry list. -/

namespace Sys2Proof.Machine

/-! ### The slots on which a STEP starts its first step -/

/-- R95, R96: whether a STEP starts its first step on a slot: a REPLACE always, an APPEND where the link's claim runs none. -/
def State.startsAt (s : State) (q : StepRequest) (n : SlotNo) : Bool :=
  decide (q.option = .replace) || ((s.claimOf q.link n q.group).bind (·.running)).isNone

/-- The claim numbers of the link's claims in slots on which a STEP started its first step; `s` is the state before. -/
def State.startNumbers (s t : State) (q : StepRequest) (slots : List SlotNo) : List Nat :=
  (slots.filter (s.startsAt q)).filterMap fun n => (t.claimOf q.link n q.group).map (·.number)

/-- Whether an entry is of no claim that the link holds on the group in the slots. -/
def State.ofNone (s : State) (l : Link) (g : Group) (slots : List SlotNo) (e : ExpiryEntry) : Bool :=
  slots.all fun n => s.notOf l g n e

section
variable {s t u v : State} {q : StepRequest} {n : SlotNo} {slots : List SlotNo} {fields : List StepFields}
  {lost : List (Link × SlotNo)}

theorem State.startsAt_iff : s.startsAt q n = true ↔ q.StartsOn (s.stepBase q.link q.group n) := by
  unfold State.startsAt StepRequest.StartsOn State.stepBase
  cases s.claimOf q.link n q.group with
  | none => simp [State.newClaim]
  | some c => simp [Option.isNone_iff_eq_none]

theorem SlotSame.startsAt (h : SlotSame n s t) (q : StepRequest) : t.startsAt q n = s.startsAt q n := by
  unfold State.startsAt; rw [h.claims]

theorem SlotSame.notOf (h : SlotSame n s t) (l : Link) (g : Group) (e : ExpiryEntry) : t.notOf l g n e = s.notOf l g n e := by
  unfold State.notOf; rw [h.claims]

theorem State.ofNone_congr {l : Link} {g : Group} (same : ∀ n ∈ slots, SlotSame n s t) :
    t.ofNone l g slots = s.ofNone l g slots := by
  funext e
  unfold State.ofNone
  rw [Bool.eq_iff_iff, List.all_eq_true, List.all_eq_true]
  exact forall₂_congr fun n hn => by rw [(same n hn).notOf]

theorem filter_startsAt_congr (same : ∀ n ∈ slots, SlotSame n s t) :
    slots.filter (t.startsAt q) = slots.filter (s.startsAt q) :=
  List.filter_congr fun n hn => (same n hn).startsAt q

/-- R97: the entries of the link's claim on a slot group are those of the claim that a STEP works on there. -/
theorem State.PoolCore.filter_notOf (core : s.PoolCore) (l : Link) (g : Group) (n : SlotNo) :
    s.expiryList.filter (fun e => decide (e.claim ≠ (s.stepBase l g n).number)) = s.expiryList.filter (s.notOf l g n) := by
  refine List.filter_congr fun e he => ?_
  unfold State.notOf State.stepBase
  cases found : s.claimOf l n g with
  | none =>
    obtain ⟨c, hc, entry⟩ := List.mem_filterMap.mp (core.entries.mem_iff.mp he)
    have fresh := (s.newClaim_number l n g (s.present n g)).1
    have ne : e.claim ≠ (s.newClaim l n g (s.present n g)).number := fun eq => by
      rw [← eq, ← (Claim.entry_eq_some.mp entry).1] at fresh
      exact fresh (List.mem_map_of_mem hc)
    simp [ne]
  | some c => simp [eq_comm]

/-- The number of the claim that a STEP works on is that of the link's claim afterwards. -/
theorem StepServed.number (h : StepServed q fields n u v lost) :
    (v.claimOf q.link n q.group).map (·.number) = some (u.stepBase q.link q.group n).number := by
  cases h with
  | started x rest copies starts served =>
    obtain ⟨stamp, -, claim⟩ := served.claim
    rw [claim]; rfl
  | appended steps copies waits served => rw [served.claim]; rfl

/-- No two slots of a set have one claim. -/
theorem State.PoolCore.number_apart (core : t.PoolCore) {l : Link} {g : Group} {m : SlotNo} {k : Nat} (ne : m ≠ n)
    (one : (t.claimOf l n g).map (·.number) = some k) : (t.claimOf l m g).map (·.number) ≠ some k := fun two => by
  obtain ⟨c, hc, rfl⟩ := Option.map_eq_some_iff.mp one
  obtain ⟨d, hd, number⟩ := Option.map_eq_some_iff.mp two
  obtain ⟨memC, placeC⟩ := core.claimOf_iff.mp hc
  obtain ⟨memD, placeD⟩ := core.claimOf_iff.mp hd
  rw [core.number_inj memD memC number, placeC] at placeD
  exact ne (congrArg (fun p : Link × SlotNo × Group => p.2.1) placeD).symm

/-! ### The expiry list after the slots (R97) -/

/-- R97: the entries of other claims stay. -/
theorem Passage.step_others (h : Passage (StepServed q fields) slots s t lost) (nodup : slots.Nodup) {p : ExpiryEntry → Bool}
    (out : ∀ e : ExpiryEntry, e.claim ∈ s.startNumbers t q slots → p e = false) :
    t.expiryList.filter p = s.expiryList.filter p := by
  induction h with
  | nil => rfl
  | @cons n ns s u t a b one rest ih =>
    obtain ⟨fresh, nodup⟩ := List.nodup_cons.mp nodup
    have same : ∀ m ∈ ns, SlotSame m s u := fun m hm => one.taken.same fun e => fresh (e ▸ hm)
    have tail : s.startNumbers t q ns ⊆ s.startNumbers t q (n :: ns) := fun k hk => by
      unfold State.startNumbers at *
      rw [List.filter_cons]
      split
      · rw [List.filterMap_cons]
        split
        · exact hk
        · exact List.mem_cons_of_mem _ hk
      · exact hk
    rw [ih nodup fun e he => out e (tail ?_)]
    · cases one with
      | started x rest' copies starts served =>
        rw [served.entries (s.present n q.group)]
        refine filter_reentered _ fun e own => out e ?_
        unfold State.startNumbers
        rw [List.filter_cons_of_pos (State.startsAt_iff.mpr starts), List.filterMap_cons,
          (rest.slot_same StepServed.taken fresh).claims, (StepServed.started x rest' copies starts served).number, own]
        exact List.mem_cons_self
      | appended steps copies waits served => rw [served.frame]
    · unfold State.startNumbers at *
      rwa [filter_startsAt_congr same] at he

/-- R97: the new entries stand together behind those that expire no later, in the order of the slots. -/
theorem Passage.step_entries {x : StepFields} {rest : List StepFields} (h : Passage (StepServed q (x :: rest)) slots s t lost)
    (core : s.PoolCore) (nodup : slots.Nodup) (order : InOrder s.now s.expiryList) :
    t.expiryList = enter s.now (s.startNumbers t q slots)
      (s.expiryList.filter (s.ofNone q.link q.group (slots.filter (s.startsAt q)))) (x :: rest) := by
  induction h with
  | nil s =>
    have all : s.expiryList.filter (s.ofNone q.link q.group []) = s.expiryList := List.filter_eq_self.mpr fun _ _ => rfl
    exact (placed_nil order).symm.trans (congrArg (fun es => enter s.now [] es (x :: rest)) all.symm)
  | @cons n ns s u t a b one others ih =>
    obtain ⟨fresh, nodup⟩ := List.nodup_cons.mp nodup
    have same : ∀ m ∈ ns, SlotSame m s u := fun m hm => one.taken.same fun e => fresh (e ▸ hm)
    have now : u.now = s.now := by rw [one.taken.frame]; rfl
    have numbers : u.startNumbers t q ns = s.startNumbers t q ns := by
      unfold State.startNumbers; rw [filter_startsAt_congr same]
    have outs : u.ofNone q.link q.group (ns.filter (s.startsAt q)) = s.ofNone q.link q.group (ns.filter (s.startsAt q)) :=
      State.ofNone_congr fun m hm => same m (List.mem_filter.mp hm).1
    have number := one.number
    have core' := one.taken.after
    cases one with
    | appended steps copies waits served =>
      have entries : u.expiryList = s.expiryList := by rw [served.frame]
      have waits' : ¬s.startsAt q n = true := fun h => waits (State.startsAt_iff.mp h)
      have step := ih core' nodup (by rw [now, entries]; exact order)
      rw [numbers, filter_startsAt_congr same, outs, entries, now] at step
      unfold State.startNumbers at *
      rwa [List.filter_cons_of_neg waits']
    | started y ys copies starts served =>
      obtain ⟨head, -⟩ := List.cons.inj copies
      have starts' : s.startsAt q n = true := State.startsAt_iff.mpr starts
      have here : (t.claimOf q.link n q.group).map (·.number) = some (s.stepBase q.link q.group n).number := by
        rw [(others.slot_same StepServed.taken fresh).claims]; exact number
      have entered : u.expiryList = enter s.now [(s.stepBase q.link q.group n).number]
          (s.expiryList.filter (s.notOf q.link q.group n)) (x :: rest) := by
        rw [served.entries (s.present n q.group), ← core.filter_notOf]
        unfold reentered
        dsimp only
        rw [(runFrom_copy head).2.2.2.1, insertEntry_inOrder (order.filter _) (expiryOf_near s.now x).1]
        rfl
      have step := ih core' nodup (by rw [now, entered]; exact (order.filter _).enter _ _)
      have passes : ∀ time, s.ofNone q.link q.group (ns.filter (s.startsAt q))
          ⟨(s.stepBase q.link q.group n).number, time⟩ = true := fun time => List.all_eq_true.mpr fun m hm => by
        have inside := (List.mem_filter.mp hm).1
        have ne : m ≠ n := fun e => fresh (e ▸ inside)
        rw [← (same m inside).notOf]
        exact decide_eq_true (core'.number_apart ne number)
      rw [numbers, filter_startsAt_congr same, outs, now, entered,
        filter_enter (q := fun j => s.ofNone q.link q.group (ns.filter (s.startsAt q)) ⟨j, s.now⟩) fun _ _ => rfl,
        List.filter_cons_of_pos (p := fun j => s.ofNone q.link q.group (ns.filter (s.startsAt q)) ⟨j, s.now⟩) (passes _),
        List.filter_nil, List.filter_filter] at step
      refine step.trans (placed_placed.trans ?_)
      unfold State.startNumbers
      rw [List.filter_cons_of_pos starts', List.filterMap_cons, here]
      refine congrArg (fun es => placed s.now _ _ es) (List.filter_congr fun e _ => ?_)
      rw [Bool.and_comm]
      rfl

end

end Sys2Proof.Machine
end

section
/-! PROOF. A STEP that passes its tests (R93 to R97, R101), up to the end of the event. -/

namespace Sys2Proof.Machine

section
variable {s t : State} {q : StepRequest} {n : SlotNo} {slots : List SlotNo} {x : StepFields} {rest : List StepFields}
  {lost : List (Link × SlotNo)} {c : Claim}

/-! ### Each slot of the STEP -/

/-- A slot on which the first step has started, between the state `u` that its turn found and the state `v` that it left. -/
structure StepStart (s t : State) (q : StepRequest) (slots : List SlotNo) (n : SlotNo) (x : StepFields)
    (rest : List StepFields) (u v : State) (y : Step) (ys : List Step) : Prop where
  reached : Reached q.link q.group slots n s t u
  head : fieldsOf y = lowered x
  tail : ys.map fieldsOf = rest.map lowered
  served : ∃ a, SlotStarted q n y ys (u.stepBase q.link q.group n) u v a
  after : SlotSame n v t

theorem Passage.starts_at (h : Passage (StepServed q (x :: rest)) slots s t lost) (nodup : slots.Nodup) (mem : n ∈ slots)
    (starts : s.startsAt q n = true) : ∃ u v y ys, StepStart s t q slots n x rest u v y ys := by
  obtain ⟨u, v, a, reached, served, after⟩ := h.at StepServed.taken nodup mem
  cases served with
  | started y ys copies starts served =>
    obtain ⟨head, tail⟩ := List.cons.inj copies
    exact ⟨u, v, y, ys, reached, head, tail, ⟨a, served⟩, after⟩
  | appended steps copies waits served =>
    rw [← reached.same.startsAt, State.startsAt_iff] at starts
    exact absurd starts waits

theorem Passage.waits_at (h : Passage (StepServed q (x :: rest)) slots s t lost) (nodup : slots.Nodup) (mem : n ∈ slots)
    (waits : ¬s.startsAt q n = true) : ∃ (d : Claim) (steps : List Step), s.claimOf q.link n q.group = some d ∧
      steps.map fieldsOf = (x :: rest).map lowered ∧ t.claimOf q.link n q.group = some (q.appended d steps) ∧
      t.slot n = s.slot n := by
  obtain ⟨u, v, a, reached, served, after⟩ := h.at StepServed.taken nodup mem
  cases served with
  | started y ys copies starts served =>
    rw [← State.startsAt_iff, reached.same.startsAt] at starts
    exact absurd starts waits
  | appended steps copies waits served =>
    have slot : v.slot n = u.slot n := by rw [served.frame]; rfl
    exact ⟨_, steps, (reached.same.claims _ _).symm.trans served.found, copies, (after.claims _ _).trans served.claim,
      after.slot.trans (slot.trans reached.same.slot)⟩

/-- The claims of the pool after a STEP are those elsewhere, as they were, and the link's in the slots. -/
theorem Passage.step_claims (h : Passage (StepServed q (x :: rest)) slots s t lost) (core : t.PoolCore) (mem : c ∈ t.claims) :
    c ∈ s.claims ∨ ∃ n ∈ slots, t.claimOf q.link n q.group = some c := by
  by_cases off : c.offSlots q.link slots q.group = true
  · have kept : c ∈ t.claims.filter (Claim.offSlots q.link slots q.group) := List.mem_filter.mpr ⟨mem, off⟩
    rw [h.others StepServed.taken] at kept
    exact .inl (List.mem_filter.mp kept).1
  · rw [Claim.offSlots_iff, not_not] at off
    obtain ⟨n, hn, place⟩ := off
    exact .inr ⟨n, hn, core.claimOf_iff.mpr ⟨mem, place⟩⟩

/-- R97: steps of no time run on claims alone on which the STEP has started its first step. -/
theorem Passage.step_instants (h : Passage (StepServed q (x :: rest)) slots s t lost) (core : s.PoolCore) (settled : s.Settled)
    (nodup : slots.Nodup) (mem : c ∈ t.claims) {r : RunningStep} (run : c.running = some r) (instant : r.step.instant = true) :
    ∃ n ∈ slots, s.startsAt q n = true ∧ t.claimOf q.link n q.group = some c := by
  rcases h.step_claims (h.core StepServed.taken core) mem with old | ⟨n, hn, found⟩
  · rw [settled c old r run] at instant; cases instant
  · by_cases starts : s.startsAt q n = true
    · exact ⟨n, hn, starts, found⟩
    · obtain ⟨d, steps, held, -, claim, -⟩ := h.waits_at nodup hn starts
      rw [found] at claim
      rw [Option.some.inj claim] at run
      rw [settled d (core.claimOf_iff.mp held).1 r run] at instant
      cases instant

theorem Passage.step_instantChanged (h : Passage (StepServed q (x :: rest)) slots s t lost) (core : s.PoolCore)
    (settled : s.Settled) (nodup : slots.Nodup) : t.InstantChanged := fun c mem r run instant => by
  obtain ⟨n, hn, starts, found⟩ := h.step_instants core settled nodup mem run instant
  obtain ⟨u, v, y, ys, start⟩ := h.starts_at nodup hn starts
  obtain ⟨a, served⟩ := start.served
  rw [(State.claimOf_mem found).2.2.1, start.after.slot]
  exact served.changed

/-! ### What the links are to hear (R101) -/

/-- R94: the fields of the claim that a STEP works on, in the terms of the state before it. -/
theorem Reached.stepBase {u : State} {l : Link} {g : Group} (h : Reached l g slots n s t u) :
    (u.stepBase l g n).mode = ((s.claimOf l n g).map (·.mode)).getD .oneShot ∧
      (u.stepBase l g n).lowMark = ((s.claimOf l n g).map (·.lowMark)).getD 0 ∧
      (u.stepBase l g n).armed = ((s.claimOf l n g).map (·.armed)).getD true ∧
      (u.stepBase l g n).rest = ((s.claimOf l n g).map (·.rest)).getD (s.present n g) ∧
      (u.stepBase l g n).ownValue u.now = (match s.claimOf l n g with
        | none => s.present n g
        | some d => d.ownValue s.now) ∧
      (match s.claimOf l n g with
        | none => TakesLowestRecord s t l g slots n (u.stepBase l g n) ∧ (u.stepBase l g n).role = s.pair.roleFor l
        | some d => (u.stepBase l g n).number = d.number ∧ (u.stepBase l g n).role = d.role) := by
  have present := h.same.present h.now g
  have pair : u.pair = s.pair := by rw [h.frame]
  unfold State.stepBase
  rw [h.same.claims l g, h.now, ← present]
  cases s.claimOf l n g with
  | none => exact ⟨rfl, rfl, rfl, rfl, rfl, h.takes_lowest _, congrArg (·.roleFor l) pair⟩
  | some d => exact ⟨rfl, rfl, rfl, rfl, rfl, rfl, rfl⟩

variable {u v : State} {y : Step} {ys : List Step}

/-- The claim on which a STEP has started its first step, before the end of the event. -/
theorem StepStart.claim (h : StepStart s t q slots n x rest u v y ys) : ∃ d, t.claimOf q.link n q.group = some d ∧
    d.running = some (y.runFrom (startsFrom u v n q.group (u.stepBase q.link q.group n)) s.now false) ∧ d.queue = ys ∧
    d.number = (u.stepBase q.link q.group n).number ∧ d.role = (u.stepBase q.link q.group n).role ∧
    d.rest = (u.stepBase q.link q.group n).rest ∧ d.taken = s.now ∧ s.stampCount ≤ d.takenOrder ∧
    d.mode = q.mode.getD (u.stepBase q.link q.group n).mode ∧ d.lowMark = q.lowMark.getD (u.stepBase q.link q.group n).lowMark ∧
    d.armed = ((u.stepBase q.link q.group n).armed ||
      decide (q.lowMark.getD (u.stepBase q.link q.group n).lowMark < rest.length)) := by
  obtain ⟨a, served⟩ := h.served
  obtain ⟨stamp, late, claim⟩ := served.claim
  have length : ys.length = rest.length := by simpa using congrArg List.length h.tail
  refine ⟨_, (h.after.claims _ _).trans claim, ?_, rfl, rfl, rfl, rfl, h.reached.now, h.reached.stamps.trans late, rfl, rfl, ?_⟩
  · rw [← h.reached.now]; rfl
  · rw [← length]; rfl

/-- R101: what a STEP that starts its first step makes the sender hear, as the statements name it. -/
theorem StepStart.heard (h : StepStart s t q slots n x rest u v y ys) {d : Claim} (found : t.claimOf q.link n q.group = some d) :
    d.settleNotices = lowAtStart s q.link n q.group q.mode q.lowMark x rest ∧
      d.heardOf x rest = lowAtStart s q.link n q.group q.mode q.lowMark x rest := by
  obtain ⟨d', found', running, queue, -, -, -, -, -, mode, lowMark, armed⟩ := h.claim
  obtain rfl := Option.some.inj (found.symm.trans found')
  obtain ⟨baseMode, baseLow, baseArmed, -⟩ := h.reached.stepBase
  obtain ⟨-, -, slot, group⟩ := State.claimOf_mem found
  have heard : d.heardOf x rest = lowAtStart s q.link n q.group q.mode q.lowMark x rest := by
    unfold Claim.heardOf lowAtStart
    rw [mode, lowMark, armed, slot, group, baseMode, baseLow, baseArmed]
  exact ⟨(Claim.settleNotices_started running queue h.head h.tail).trans heard, heard⟩

end

end Sys2Proof.Machine
end

section
/-! PROOF. A STEP that passes its tests (R93 to R101), to the end of the event. -/

namespace Sys2Proof.Machine

section
variable {s t : State} {q : StepRequest} {n : SlotNo} {slots : List SlotNo} {x : StepFields} {rest : List StepFields}
  {lost : List (Link × SlotNo)} {c : Claim}

theorem flatMap_filter {α β : Type} (p : α → Bool) (f : α → List β) (as : List α) :
    (as.filter p).flatMap f = as.flatMap (fun a => if p a then f a else []) := by
  induction as with
  | nil => rfl
  | cons a as ih => rw [List.filter_cons, List.flatMap_cons, ← ih]; split <;> simp

theorem State.claimsIn_flatMap {β : Type} (t : State) (l : Link) (g : Group) (f : Claim → List β) :
    (t.claimsIn l g slots).flatMap f = slots.flatMap (fun n => ((t.claimOf l n g).map f).getD []) := by
  unfold State.claimsIn
  induction slots with
  | nil => rfl
  | cons n ns ih =>
    rw [List.flatMap_cons, List.filterMap_cons, ← ih]
    cases t.claimOf l n g <;> rfl

/-- R101: what each slot makes the sender hear at the end of the event. -/
theorem Passage.step_heard_at (h : Passage (StepServed q (x :: rest)) slots s t lost) (core : s.PoolCore) (settled : s.Settled)
    (nodup : slots.Nodup) (mem : n ∈ slots) : ((t.claimOf q.link n q.group).map Claim.settleNotices).getD [] =
      if s.startsAt q n then lowAtStart s q.link n q.group q.mode q.lowMark x rest else [] := by
  by_cases starts : s.startsAt q n = true
  · obtain ⟨u, v, y, ys, start⟩ := h.starts_at nodup mem starts
    obtain ⟨d, found, -⟩ := start.claim
    rw [if_pos starts, found]
    exact (start.heard found).1
  · obtain ⟨d, steps, held, -, claim, -⟩ := h.waits_at nodup mem starts
    rw [if_neg starts, claim]
    exact Claim.settleNotices_of_settled fun r run => settled d (core.claimOf_iff.mp held).1 r run

/-- R101: the sender hears of its claims; no other link hears of its own. -/
theorem Passage.step_heard (h : Passage (StepServed q (x :: rest)) slots s t lost) (core : s.PoolCore) (settled : s.Settled)
    (nodup : slots.Nodup) (k : Link) : (t.settleHeard k).Perm (if k = q.link then
      (slots.filter (s.startsAt q)).flatMap (fun n => lowAtStart s q.link n q.group q.mode q.lowMark x rest) else []) := by
  have core' := h.core StepServed.taken core
  have split := ((core'.claims_split (l := q.link) (g := q.group) nodup).filter (fun c => decide (c.link = k))).flatMap_right
    Claim.settleNotices
  rw [List.filter_append, List.flatMap_append, h.others StepServed.taken] at split
  have silent : ((s.claims.filter (Claim.offSlots q.link slots q.group)).filter (fun c => decide (c.link = k))).flatMap
      Claim.settleNotices = [] := List.flatMap_eq_nil_iff.mpr fun c hc =>
    Claim.settleNotices_of_settled (settled c (List.mem_filter.mp (List.mem_filter.mp hc).1).1)
  rw [silent, List.nil_append] at split
  refine split.trans (List.Perm.of_eq ?_)
  have links : ∀ c ∈ t.claimsIn q.link q.group slots, c.link = q.link := fun c hc => by
    obtain ⟨-, n, -, place⟩ := core'.mem_claimsIn.mp hc
    exact congrArg (fun p : Link × SlotNo × Group => p.1) place
  by_cases own : k = q.link
  · rw [if_pos own, List.filter_eq_self.mpr fun c hc => decide_eq_true ((links c hc).trans own.symm), flatMap_filter,
      State.claimsIn_flatMap]
    exact List.flatMap_congr fun n hn => h.step_heard_at core settled nodup hn
  · rw [if_neg own, List.filter_eq_nil_iff.mpr fun c hc => by simpa using fun e => own (e.symm.trans (links c hc))]
    rfl

theorem Passage.step_timed {fields : List StepFields} (h : Passage (StepServed q fields) slots s t lost) (timed : s.Timed) :
    t.Timed := by
  induction h with
  | nil => exact timed
  | cons one _ ih => exact ih (one.timed timed)

/-! ### The expiry list (R97) -/

theorem mem_startNumbers {k : Nat} : k ∈ s.startNumbers t q slots ↔
    ∃ n ∈ slots, s.startsAt q n = true ∧ (t.claimOf q.link n q.group).map (·.number) = some k := by
  unfold State.startNumbers
  simp only [List.mem_filterMap, List.mem_filter, and_assoc]

theorem State.PoolCore.startNumbers_nodup (core : t.PoolCore) (nodup : slots.Nodup) : (s.startNumbers t q slots).Nodup := by
  refine (nodup.filter _).filterMap fun n m k hn hm => ?_
  by_contra ne
  exact core.number_apart (Ne.symm ne) hn hm

/-- R97: only claims on which a STEP started its first step run steps of no time. -/
theorem Passage.step_only (h : Passage (StepServed q (x :: rest)) slots s t lost) (core : s.PoolCore) (settled : s.Settled)
    (nodup : slots.Nodup) : ∀ c ∈ t.claims, ∀ r, c.running = some r → r.step.instant = true →
      c.number ∈ s.startNumbers t q slots := fun c mem r run instant => by
  obtain ⟨n, hn, starts, found⟩ := h.step_instants core settled nodup mem run instant
  exact mem_startNumbers.mpr ⟨n, hn, starts, by rw [found]; rfl⟩

/-- R97: the entries that are of no claim that the link held are of no claim on which the STEP started its first step. -/
theorem Passage.step_out (h : Passage (StepServed q (x :: rest)) slots s t lost) (core : s.PoolCore) (nodup : slots.Nodup) :
    ∀ e ∈ s.expiryList.filter (s.ofNone q.link q.group (slots.filter (s.startsAt q))), e.claim ∉ s.startNumbers t q slots := by
  intro e he held
  obtain ⟨he, none⟩ := List.mem_filter.mp he
  obtain ⟨n, hn, starts, number⟩ := mem_startNumbers.mp held
  have other := of_decide_eq_true (List.all_eq_true.mp none n (List.mem_filter.mpr ⟨hn, starts⟩))
  obtain ⟨u, v, y, ys, start⟩ := h.starts_at nodup hn starts
  obtain ⟨d, found, -, -, same, -⟩ := start.claim
  rw [found, Option.map_some, same] at number
  have number := Option.some.inj number
  obtain ⟨c, hc, entry⟩ := List.mem_filterMap.mp (core.entries.mem_iff.mp he)
  have fresh := (u.newClaim_number q.link n q.group (u.present n q.group)).1
  unfold State.stepBase at number
  rw [start.reached.same.claims] at number
  cases claim : s.claimOf q.link n q.group with
  | none =>
    rw [claim] at number
    refine fresh ((start.reached.numbers _).mpr (List.mem_append_left _ ?_))
    rw [show (u.newClaim q.link n q.group (u.present n q.group)).number = e.claim from number,
      ← (Claim.entry_eq_some.mp entry).1]
    exact List.mem_map_of_mem hc
  | some c =>
    rw [claim] at number other
    exact other (congrArg some number)

/-- R97: the claims on which a STEP has started its first step run it. -/
theorem Passage.step_runs (h : Passage (StepServed q (x :: rest)) slots s t lost) (nodup : slots.Nodup) :
    ∀ k ∈ s.startNumbers t q slots, t.RunsAt s.now (x :: rest) k := fun k hk => by
  obtain ⟨n, hn, starts, number⟩ := mem_startNumbers.mp hk
  obtain ⟨u, v, y, ys, start⟩ := h.starts_at nodup hn starts
  obtain ⟨d, found, run, queue, -⟩ := start.claim
  rw [found, Option.map_some] at number
  exact ⟨d, (State.claimOf_mem found).1, Option.some.inj number, _, run, (runFrom_copy start.head).2.2.2.1, start.head,
    queue ▸ start.tail⟩

/-- R97: the entries of other claims stay at the end of the event. -/
theorem State.settleSteps_others (core : s.PoolCore) (fits : s.stepRecords.length ≤ 4096) {numbers : List Nat}
    {p : ExpiryEntry → Bool}
    (only : ∀ c ∈ s.claims, ∀ r, c.running = some r → r.step.instant = true → c.number ∈ numbers)
    (out : ∀ e : ExpiryEntry, e.claim ∈ numbers → p e = false) :
    s.settleSteps.expiryList.filter p = s.expiryList.filter p :=
  (State.settleSteps_induction (P := fun u => u.expiryList.filter p = s.expiryList.filter p ∧
      ∀ c ∈ u.claims, ∀ r, c.running = some r → r.step.instant = true → c.number ∈ numbers) core fits ⟨rfl, only⟩
    fun u c r core found ⟨kept, only⟩ => by
      obtain ⟨mem, run, instant⟩ := State.instantEntry_spec found
      have own := only c mem r run instant
      refine ⟨(State.retire_others core mem fun e eq => out e (eq ▸ own)).trans kept, fun x hx r' run' instant' => ?_⟩
      rw [(State.retire_spec core.numbers_differ mem).1, mem_rewritten core.numbers_differ mem (c.retired_same r).number] at hx
      rcases hx with rfl | ⟨hx, -⟩
      · rw [(c.retired_same r).number]; exact own
      · exact only x hx r' run' instant').2.2.1

/-- R97: the entries of the claims of a STEP at the end of the event. -/
theorem State.Settling.settleSteps {now : Reading} {numbers : List Nat} {others : List ExpiryEntry} {fields : List StepFields}
    (h : s.Settling now numbers others fields) (core : s.PoolCore) (fits : s.stepRecords.length ≤ 4096)
    (order : InOrder now others) (apart : numbers.Nodup) (out : ∀ e ∈ others, e.claim ∉ numbers) :
    s.settleSteps.expiryList = match fields.find? (fun x => !noTime x) with
      | none => others
      | some x => placed now (expiryOf now x) (entriesAt (expiryOf now x) numbers) others := by
  obtain ⟨-, settled, settling⟩ := State.settleSteps_induction (P := fun u => u.Settling now numbers others fields) core fits h
    fun u c r core found settling => settling.retire core order apart out found
  exact settling.entries order settled

/-! ### The end of the event -/

/-- What a STEP that passes its tests leaves, `v` being the state after its slots (R93 to R101). -/
structure StepTaken (s v t : State) (q : StepRequest) (slots : List SlotNo) (x : StepFields) (rest : List StepFields) :
    Prop where
  passage : ∃ lost, Passage (StepServed q (x :: rest)) slots s v lost
  core : t.PoolCore
  settled : t.Settled
  claims : t.claims = v.claims.map Claim.ended
  slots_kept : t.slots = v.slots
  frame : t = { s with links := t.links, slots := t.slots, claims := t.claims, stampCount := t.stampCount
                       expiryList := t.expiryList }
  told : ∃ ns : Link → List Notice, Told s t (fun k => displacedNotices q.group q.link (lostBy s t q.link k q.group slots) ++ ns k) ∧
    ∀ k, (ns k).Perm (if k = q.link then
      (slots.filter (s.startsAt q)).flatMap (fun n => lowAtStart s q.link n q.group q.mode q.lowMark x rest) else [])
  kept : ∀ p : ExpiryEntry → Bool, (∀ e : ExpiryEntry, e.claim ∈ s.startNumbers t q slots → p e = false) →
    t.expiryList.filter p = s.expiryList.filter p
  entered : InOrder s.now s.expiryList → t.expiryList = match (x :: rest).find? (fun x => !noTime x) with
    | none => s.expiryList.filter (s.ofNone q.link q.group (slots.filter (s.startsAt q)))
    | some x => placed s.now (expiryOf s.now x) (entriesAt (expiryOf s.now x) (s.startNumbers t q slots))
        (s.expiryList.filter (s.ofNone q.link q.group (slots.filter (s.startsAt q))))
  records : t.stepRecords.length ≤ 4096 ∧ (s.RecordsSound → t.RecordsSound)
  timed : s.Timed → t.Timed

theorem Claim.ended_ranks (c : Claim) : c.Ranks c.ended := c.ended_same.ranks

theorem State.owner_links {v w : State} (links : w = { v with links := w.links }) (n : SlotNo) (g : Group) :
    w.owner n g = v.owner n g := State.owner_congr (by rw [links]) n g

/-- At the end of the event each claim is what is left of it. -/
theorem State.PoolCore.claimOf_ended {v : State} (coreV : v.PoolCore) (core : t.PoolCore)
    (claims : t.claims = v.claims.map Claim.ended) (l : Link) (n : SlotNo) (g : Group) :
    t.claimOf l n g = (v.claimOf l n g).map Claim.ended := by
  cases found : v.claimOf l n g with
  | none =>
    refine State.claimOf_none.mpr fun c hc ⟨link, slot, group⟩ => ?_
    rw [claims] at hc
    obtain ⟨d, hd, rfl⟩ := List.mem_map.mp hc
    have same := d.ended_same
    exact State.claimOf_none.mp found d hd ⟨same.link.symm.trans link, same.slot.symm.trans slot, same.group.symm.trans group⟩
  | some d =>
    obtain ⟨hd, place⟩ := coreV.claimOf_iff.mp found
    exact core.claimOf_iff.mpr ⟨claims ▸ List.mem_map_of_mem hd, d.ended_same.place.trans place⟩

theorem State.PoolCore.startNumbers_ended {v : State} (coreV : v.PoolCore) (core : t.PoolCore)
    (claims : t.claims = v.claims.map Claim.ended) : s.startNumbers t q slots = s.startNumbers v q slots := by
  unfold State.startNumbers
  refine List.filterMap_congr fun n _ => ?_
  rw [coreV.claimOf_ended core claims]
  cases v.claimOf q.link n q.group with
  | none => rfl
  | some d => exact congrArg some d.ended_same.number

theorem State.takeStep_taken (core : s.PoolCore) (settled : s.Settled) (covered : s.StepCovered q slots (rest.length + 1))
    (nodup : slots.Nodup) (low : q.LowFits) (few : rest.length + 1 ≤ 8) :
    ∃ v, StepTaken s v (s.takeStep q slots (x :: rest)) q slots x rest := by
  have unfolded : s.takeStep q slots (x :: rest) =
      (((State.stepSlots q (x :: rest) slots (s.recordsFor q slots (x :: rest).length) s).1.raiseDisplaced q.link q.group
        (State.stepSlots q (x :: rest) slots (s.recordsFor q slots (x :: rest).length) s).2).settleSteps) := rfl
  rw [unfolded]
  obtain ⟨passage, fits, records⟩ := State.stepSlots_covered (fields := x :: rest) core covered nodup low
    (List.cons_ne_nil _ _) few rfl
  generalize State.stepSlots q (x :: rest) slots (s.recordsFor q slots (x :: rest).length) s = done at *
  obtain ⟨v, lost⟩ := done
  dsimp only at *
  have raised := State.raiseDisplaced_lost (s := s) (t := v) (l := q.link) (g := q.group) nodup
  rw [← passage.lost_eq StepServed.taken nodup] at raised
  have raiseFrame := (v.raiseDisplaced_hear q.link q.group lost).2
  have coreV := passage.core StepServed.taken core
  have heard := passage.step_heard core settled nodup
  have changed := passage.step_instantChanged core settled nodup
  have only := passage.step_only core settled nodup
  have out := passage.step_out core nodup
  have runs := passage.step_runs nodup
  have frameV := passage.frame StepServed.taken
  generalize v.raiseDisplaced q.link q.group lost = w at raised raiseFrame ⊢
  have claimsW : w.claims = v.claims := by rw [raiseFrame]
  have recordsW : w.stepRecords = v.stepRecords := by unfold State.stepRecords; rw [claimsW]
  have coreW : w.PoolCore := coreV.congr claimsW (by rw [raiseFrame]) (by rw [raiseFrame])
  have fitsW : w.stepRecords.length ≤ 4096 := recordsW ▸ fits
  have changedW : w.InstantChanged := by
    unfold State.InstantChanged State.slot
    rw [claimsW, raiseFrame]
    exact changed
  have onlyW : ∀ c ∈ w.claims, ∀ r, c.running = some r → r.step.instant = true → c.number ∈ s.startNumbers v q slots := by
    rw [claimsW]; exact only
  have keptT := fun p => State.settleSteps_others (p := p) coreW fitsW onlyW
  have placedT := fun order settling => State.Settling.settleSteps (s := w) (now := s.now) (fields := x :: rest)
    settling coreW fitsW order (coreV.startNumbers_nodup (s := s) (q := q) nodup) out
  obtain ⟨coreT, settledT, claimsT, recordsT⟩ := coreW.settleSteps fitsW
  have slotsT := State.settleSteps_slots coreW fitsW changedW
  obtain ⟨ns, toldT, heardT⟩ := State.settleSteps_heard coreW fitsW
  have frameT := State.settleSteps_frame coreW fitsW
  have timedT := fun timed : w.Timed => timed.settleSteps coreW fitsW
  generalize w.settleSteps = t at *
  have links : v.links = s.links := by rw [frameV]
  have owners : ∀ n, (t.owner n q.group).map (·.link) = (v.owner n q.group).map (·.link) := fun n => by
    rw [← State.owner_links raiseFrame, coreW.ownerLink_map coreT claimsT fun c _ => c.ended_ranks]
  have lostSame : ∀ k, lostBy s t q.link k q.group slots = lostBy s v q.link k q.group slots := fun k => by
    unfold lostBy; simp only [owners]
  have numbers : s.startNumbers t q slots = s.startNumbers v q slots := coreV.startNumbers_ended coreT (claimsW ▸ claimsT)
  have entriesW : w.expiryList = v.expiryList := by rw [raiseFrame]
  refine ⟨v, ⟨⟨lost, passage⟩, coreT, settledT, claimsW ▸ claimsT, ?_, ?_, ⟨ns, ?_, fun k => ?_⟩, fun p none => ?_,
    fun order => ?_, ⟨?_, fun sound => ?_⟩, fun timed => ?_⟩⟩
  · rw [slotsT, raiseFrame]
  · rw [frameT, raiseFrame, frameV]
  · have all := ((Told.of_links links).trans raised).trans toldT
    intro k
    rw [all k]
    dsimp only
    rw [lostSame]
    rfl
  · refine (heardT k).trans (List.Perm.trans (List.Perm.of_eq ?_) (heard k))
    unfold State.settleHeard
    rw [claimsW]
  · rw [numbers] at none
    rw [keptT p none, entriesW, passage.step_others nodup none]
  · rw [numbers]
    have orderO := order.filter (s.ofNone q.link q.group (slots.filter (s.startsAt q)))
    refine placedT orderO ⟨onlyW, x :: rest, [], _, ⟨rfl, fun k hk => ?_, fun k hk => (nomatch hk), ?_, .inl rfl⟩, rfl⟩
    · unfold State.RunsAt
      rw [claimsW]
      exact runs k hk
    · rw [entriesW, passage.step_entries core nodup order]
      exact (enter_nil (orderO.enter _ _) _).symm
  · exact recordsT.length_le.trans fitsW
  · have soundW : w.RecordsSound := by unfold State.RecordsSound; rw [recordsW]; exact records sound
    exact soundW.subperm recordsT
  · exact timedT ((passage.step_timed timed).congr claimsW (by rw [raiseFrame]) (by rw [raiseFrame]; rfl))

end

end Sys2Proof.Machine
end

section
/-! PROOF. STEP (O19, O20): what its request says it leaves (R93 to R101). -/

namespace Sys2Proof.Machine

section
variable {s t v : State} {q : StepRequest} {n : SlotNo} {slots : List SlotNo} {x : StepFields} {rest : List StepFields}

theorem Claim.ended_of_settled {c : Claim} (h : ∀ r, c.running = some r → r.step.instant = false) : c.ended = c := by
  cases run : c.running with
  | none => exact Claim.ended_of_rest run
  | some r => exact Claim.ended_of_timed run (h r run)

/-- R97: the entries of a claim of the pool are the entry of its running step. -/
theorem State.PoolCore.own_entries (core : t.PoolCore) {c : Claim} (mem : c ∈ t.claims) :
    t.expiryList.filter (fun e => decide (e.claim = c.number)) =
      (c.running.map fun r => ({ claim := c.number, time := r.expiry } : ExpiryEntry)).toList := by
  have others := core.entries_others mem
  have perm := (core.entries.trans ((otherClaims_perm core.numbers_differ mem).filterMap Claim.entry)).filter
    (fun e => decide (e.claim = c.number))
  have apart : ((otherClaims c.number t.claims).filterMap Claim.entry).filter (fun e => decide (e.claim = c.number)) = [] :=
    List.filter_eq_nil_iff.mpr fun e he own => by
      have out := of_decide_eq_true (List.mem_filter.mp (others.mem_iff.mpr he)).2
      exact out (of_decide_eq_true own)
  rw [List.filterMap_cons] at perm
  cases run : c.running with
  | none =>
    have entry : c.entry = none := by unfold Claim.entry; rw [run]; rfl
    rw [entry] at perm
    dsimp only at perm
    rw [apart] at perm
    exact perm.eq_nil
  | some r =>
    have entry : c.entry = some ⟨c.number, r.expiry⟩ := by unfold Claim.entry; rw [run]; rfl
    rw [entry] at perm
    dsimp only at perm
    rw [List.filter_cons_of_pos (by simp), apart] at perm
    exact List.perm_singleton.mp perm

/-- R55: the lowest free number is one of the claims' numbers alone. -/
theorem takesLowestRecord_congr {l : Link} {g : Group} {c d : Claim} (h : TakesLowestRecord s v l g slots n c)
    (number : d.number = c.number)
    (same : ∀ m, (t.claimOf l m g).map (·.number) = (v.claimOf l m g).map (·.number)) : TakesLowestRecord s t l g slots n d := by
  unfold TakesLowestRecord at *
  simp only [same, number]
  exact h

theorem StepTaken.claimNumber (h : StepTaken s v t q slots x rest) (core : s.PoolCore) (m : SlotNo) :
    (t.claimOf q.link m q.group).map (·.number) = (v.claimOf q.link m q.group).map (·.number) := by
  obtain ⟨lost, passage⟩ := h.passage
  rw [(passage.core StepServed.taken core).claimOf_ended h.core h.claims]
  cases v.claimOf q.link m q.group with
  | none => rfl
  | some d => exact congrArg some d.ended_same.number

/-- R63, R94 to R101: what a STEP leaves of a slot on which it starts its first step. -/
theorem step_started (h : StepTaken s v t q slots x rest) (core : s.PoolCore) (nodup : slots.Nodup) (mem : n ∈ slots)
    (starts : s.startsAt q n = true) : StepStarted s t q.link slots n q.group q.mode q.lowMark x rest := by
  obtain ⟨lost, passage⟩ := h.passage
  have coreV := passage.core StepServed.taken core
  obtain ⟨u, w, y, ys, start⟩ := passage.starts_at nodup mem starts
  obtain ⟨a, served⟩ := start.served
  obtain ⟨d, found, run, queue, number, role, rested, taken, order, mode, lowMark, armed⟩ := start.claim
  obtain ⟨baseMode, baseLow, baseArmed, baseRest, baseOwn, baseNumber⟩ := start.reached.stepBase
  have heard := (start.heard found).2
  obtain ⟨same, armed', timed, timeless⟩ := Claim.ended_started run queue start.head start.tail
  have claim : t.claimOf q.link n q.group = some d.ended := by rw [coreV.claimOf_ended h.core h.claims, found]; rfl
  have slot : t.slot n = w.slot n := by unfold State.slot; rw [h.slots_kept]; exact start.after.slot
  have owner : t.ownerNumber n q.group = w.ownerNumber n q.group :=
    (coreV.ownerNumber_map h.core h.claims (fun c _ => c.ended_ranks) n q.group).trans (start.after.ownerNumber _)
  have takenIff : takenBetween u w n q.group (u.stepBase q.link q.group n).number = true ↔
      t.ownerNumber n q.group = some d.ended.number ∧ s.ownerNumber n q.group ≠ some d.ended.number := by
    unfold takenBetween
    rw [Bool.and_eq_true, decide_eq_true_eq, decide_eq_true_eq, owner, start.reached.same.ownerNumber, same.number, number]
  have fades := served.fades
  rw [start.reached.same.slot, start.reached.same.claims, start.reached.same.runningFade start.reached.now] at fades
  refine ⟨d.ended, claim, same.taken.trans taken, fun e he => ?_, h.core.own_entries (State.claimOf_mem claim).1, ?_, ⟨?_, ?_, ?_,
    fun no => ?_, fun yes => ?_, fun own => ?_, fun own => ?_⟩, ?_⟩
  · rw [same.takenOrder]
    exact (core.in_pool e he).order_past.trans_le order
  · cases held : s.claimOf q.link n q.group with
    | none =>
      rw [held] at baseNumber
      exact ⟨takesLowestRecord_congr baseNumber.1 (same.number.trans number) (h.claimNumber core), same.role.trans (role.trans baseNumber.2)⟩
    | some b =>
      rw [held] at baseNumber
      exact ⟨same.number.trans (number.trans baseNumber.1), same.role.trans (role.trans baseNumber.2)⟩
  · rw [same.mode, mode, baseMode]
  · rw [same.lowMark, lowMark, baseLow]
  · rw [armed', heard, armed, same.lowMark, lowMark, baseArmed]
  · obtain ⟨rest', queue', r, run', copy, adjusted, began, expiry, value⟩ := timed no
    refine ⟨rest'.trans (rested.trans baseRest), queue', r, run', copy, adjusted, began, expiry, fun own => ?_, fun own => ?_⟩
    · rw [value, startsFrom, if_pos (takenIff.mpr own)]
      exact start.reached.same.present start.reached.now _
    · exact value.trans ((if_neg (mt takenIff.mp own)).trans (baseOwn.trans (by cases s.claimOf q.link n q.group <;> rfl)))
  · have left := timeless yes
    revert left
    cases (settled noTime x rest).2 with
    | nil => exact fun left => left
    | cons y later => exact fun ⟨rest', more⟩ => ⟨rest'.trans (rested.trans baseRest), more⟩
  · rw [slot, fades, if_pos (takenIff.mpr own)]
  · rw [slot, fades, if_neg (mt takenIff.mp own)]
    cases held : s.claimOf q.link n q.group with
    | none => rfl
    | some b =>
      simp only [reduceCtorEq, if_false, Option.isSome_some, if_true]
      exact (PerGroup.set_get_back _ _).symm
  · rw [slot]; exact served.changed

/-! ### The expiry list, in the terms of the statements (R97) -/

/-- R97: no entry of another claim has changed. -/
theorem StepTaken.entriesKept (h : StepTaken s v t q slots x rest) :
    EntriesKept s t q.link q.group (slots.filter (s.startsAt q)) := by
  refine h.kept _ fun e he => ?_
  obtain ⟨n, hn, starts, number⟩ := mem_startNumbers.mp he
  exact List.all_eq_false.mpr ⟨n, List.mem_filter.mpr ⟨hn, starts⟩, by simpa using number⟩

theorem entriesAt_startNumbers (time : Reading) : entriesAt time (s.startNumbers t q slots) =
    (slots.filter (s.startsAt q)).filterMap fun n =>
      (t.claimOf q.link n q.group).map fun c => { claim := c.number, time := time } := by
  unfold entriesAt State.startNumbers
  rw [List.map_filterMap]
  exact List.filterMap_congr fun n _ => by rw [Option.map_map]; rfl

/-- R97: the new entries stand together behind those that expire no later. -/
theorem StepTaken.entriesPlaced (h : StepTaken s v t q slots x rest) :
    EntriesPlaced s t q.link q.group (slots.filter (s.startsAt q)) (x :: rest) := by
  intro near order
  have all := h.entered ⟨near, order⟩
  cases first : (x :: rest).find? (fun x => !noTime x) with
  | none => rw [first] at all; exact all
  | some y =>
    rw [first] at all
    exact all.trans (congrArg (fun es => placed s.now (expiryOf s.now y) es _) (entriesAt_startNumbers _))

/-! ### The taking (R93, R117) -/

theorem anyTimeLowered_eq (fields : List StepFields) : fields.any StepFields.clamped = anyTimeLowered fields := rfl

theorem recordsHeld_eq (s : State) (l : Link) (g : Group) (slots : List SlotNo) :
    recordsHeld s l g slots = (s.recordsOf l g slots).length := by
  unfold recordsHeld State.recordsOf
  rw [List.length_flatMap]

variable {l : Link} {f : Frame} {set : SlotSet} {g : Group} {option : StepOption} {mode : Option Mode} {low : Option Nat}

/-- R93, R94: a STEP that passes its tests is taken, and answered. -/
theorem State.step_taken (p : s.PoolsSound) (hand : s.InHand l f (.step set g option mode low (x :: rest)))
    (named : set.slots = some slots) (covered : s.StepCovered ⟨l, g, option, mode, low⟩ slots (rest.length + 1)) :
    ∃ v t, StepTaken s v t ⟨l, g, option, mode, low⟩ slots x rest ∧
      (s.withSlots l f set fun slots => s.stepOrRefuse ⟨l, g, option, mode, low⟩ slots (x :: rest) f) =
        t.answer l f (if anyTimeLowered (x :: rest) then .clamped else .ok) .none := by
  obtain ⟨⟨-, lowFits, -, few, -⟩, -⟩ := (requestsAreReadAsWritten f _).mp hand.2.2
  have passes : s.stepTest ⟨l, g, option, mode, low⟩ slots (x :: rest).length = none := (State.stepTest_none_iff p).mpr covered
  obtain ⟨v, taken⟩ := State.takeStep_taken (x := x) p.core p.settled covered (SlotSet.slots_nodup named) lowFits few
  refine ⟨v, _, taken, ?_⟩
  rw [State.withSlots_of_some named, State.stepOrRefuse, passes]
  dsimp only
  rw [anyTimeLowered_eq]
  rfl

/-- R94, R96: what a STEP leaves of a slot on which its steps wait. -/
theorem StepTaken.waits (h : StepTaken s v t ⟨l, g, option, mode, low⟩ slots x rest) (core : s.PoolCore) (settled : s.Settled)
    (nodup : slots.Nodup) (mem : n ∈ slots) {d : Claim} (held : s.claimOf l n g = some d)
    (waits : ¬s.startsAt ⟨l, g, option, mode, low⟩ n = true) : t.slot n = s.slot n ∧
      ∃ added, added.map fieldsOf = (x :: rest).map lowered ∧
        t.claimOf l n g = some
          { d with
            queue := d.queue ++ added
            mode := mode.getD d.mode
            lowMark := low.getD d.lowMark
            armed := d.armed || decide (low.getD d.lowMark < d.queue.length + (rest.length + 1)) } := by
  obtain ⟨lost, passage⟩ := h.passage
  obtain ⟨d', steps, held', copies, claim, slot⟩ := passage.waits_at nodup mem waits
  obtain rfl := Option.some.inj (held.symm.trans held')
  have length : steps.length = rest.length + 1 := by simpa using congrArg List.length copies
  have ended : (StepRequest.appended ⟨l, g, option, mode, low⟩ d steps).ended =
      StepRequest.appended ⟨l, g, option, mode, low⟩ d steps :=
    Claim.ended_of_settled (settled d (core.claimOf_iff.mp held).1)
  refine ⟨?_, steps, copies, ?_⟩
  · rw [← slot]; unfold State.slot; rw [h.slots_kept]
  · rw [(passage.core StepServed.taken core).claimOf_ended h.core h.claims, claim, Option.map_some, ended]
    unfold StepRequest.appended
    rw [List.length_append, length]
    rfl

/-- What a STEP that passes its tests has done when it is answered, as the statements say it; `starts` are the slots on which
it starts its first step. -/
theorem StepTaken.answered (h : StepTaken s v t ⟨l, g, option, mode, low⟩ slots x rest) (core : s.PoolCore)
    (settled : s.Settled) (nodup : slots.Nodup) (status : Status) {starts : List SlotNo}
    (hstarts : starts = slots.filter (s.startsAt ⟨l, g, option, mode, low⟩)) {u : State} (hu : u = t.answer l f status .none) :
    Answered s u l f status .none ∧ LinksKept s u l ∧ FixturesKept s u ∧
      (∀ k, ∃ ns, ns.Perm (if k = l then starts.flatMap (fun n => lowAtStart s l n g mode low x rest) else []) ∧
        Hears (s.link k) (u.link k) (displacedNotices g l (lostBy s u l k g slots) ++ ns)) ∧
      u = { s with links := u.links, slots := u.slots, claims := u.claims, stampCount := u.stampCount,
                   expiryList := u.expiryList } ∧
      (∀ n ∈ slots, s.startsAt ⟨l, g, option, mode, low⟩ n = true → StepStarted s u l slots n g mode low x rest) ∧
      EntriesKept s u l g starts ∧ EntriesPlaced s u l g starts (x :: rest) ∧
      (∀ k n i, ¬(k = l ∧ n ∈ slots ∧ i = g) → u.claimOf k n i = s.claimOf k n i) ∧
      (∀ n, (u.slot n).parked = (s.slot n).parked) ∧ ∀ n, n ∉ slots → u.slot n = s.slot n := by
  obtain ⟨ns, told, heard⟩ := h.told
  obtain ⟨answered, kept, hears⟩ := told.answered l f status .none
  obtain ⟨lost, passage⟩ := h.passage
  have coreV := passage.core StepServed.taken core
  have slot : ∀ n, u.slot n = v.slot n := fun n => by
    rw [hu, State.answer_slot]
    unfold State.slot
    rw [h.slots_kept]
  subst hu
  subst hstarts
  refine ⟨answered, kept, fun n => ?_, fun k => ⟨ns k, heard k, hears k⟩, ?_, fun n hn starts => step_started h core nodup hn starts,
    h.entriesKept, h.entriesPlaced, fun k n i other => ?_, fun n => ?_, fun n out => ?_⟩
  · rw [slot]; exact passage.fixtures StepServed.taken n
  · exact congrArg (fun x : State => { x with links := (t.answer l f status .none).links }) h.frame
  · have off := passage.claims_off StepServed.taken other
    have ended : (s.claimOf k n i).map Claim.ended = s.claimOf k n i := by
      cases held : s.claimOf k n i with
      | none => rfl
      | some c => exact congrArg some (Claim.ended_of_settled (settled c (core.claimOf_iff.mp held).1))
    exact (coreV.claimOf_ended h.core h.claims k n i).trans ((congrArg (Option.map Claim.ended) off).trans ended)
  · rw [slot, passage.slot StepServed.taken n]
  · rw [slot]; exact (passage.slot_same StepServed.taken out).slot

end

/-- Settles O19: a REPLACE starts its first step on every slot. -/
theorem stepReplaceStartsAtOnce : Obligations.StepReplaceStartsAtOnce := by
  intro s l f set g mode low x rest slots p hand named ⟨room, records⟩
  have covered : s.StepCovered ⟨l, g, .replace, mode, low⟩ slots (rest.length + 1) :=
    ⟨room, by rw [if_pos rfl, ← recordsHeld_eq]; exact records, .inl rfl⟩
  obtain ⟨v, t, taken, done⟩ := State.step_taken p hand named covered
  have all : slots = slots.filter (s.startsAt ⟨l, g, .replace, mode, low⟩) :=
    (List.filter_eq_self.mpr fun n _ => rfl).symm
  obtain ⟨answered, kept, fixtures, hears, frame, started, others, placed, elsewhere, parked, outside⟩ :=
    taken.answered p.core p.settled (SlotSet.slots_nodup named) _ all rfl
  exact ⟨_, (exec_stepReplace hand).trans (by rw [done]), answered, kept, fixtures, hears, frame,
    fun n hn => started n hn rfl, others, placed, elsewhere, parked, outside⟩

/-- Settles O20: an APPEND starts its first step where the link's claim runs none, and appends its steps where it runs one. -/
theorem stepAppendWaitsItsTurn : Obligations.StepAppendWaitsItsTurn := by
  intro s l f set g mode low x rest slots p hand named ⟨room, records⟩ queues
  have covered : s.StepCovered ⟨l, g, .append, mode, low⟩ slots (rest.length + 1) :=
    ⟨room, by rw [if_neg (by simp)]; exact records, .inr queues⟩
  have nodup := SlotSet.slots_nodup named
  obtain ⟨v, t, taken, done⟩ := State.step_taken p hand named covered
  obtain ⟨answered, kept, fixtures, hears, frame, started, others, placed, elsewhere, parked, outside⟩ :=
    taken.answered p.core p.settled nodup _ (starts := slots.filter fun n => ((s.claimOf l n g).bind (·.running)).isNone) rfl rfl
  refine ⟨_, (exec_stepAppend hand).trans (by rw [done]), answered, kept, fixtures, hears, frame,
    fun n hn d held runs => ?_, fun n hn rests => started n hn ?_, others, placed, elsewhere, parked, outside⟩
  · have waits : ¬s.startsAt ⟨l, g, .append, mode, low⟩ n = true := by
      unfold State.startsAt
      rw [held]
      simpa [Option.isSome_iff_ne_none] using runs
    exact taken.waits p.core p.settled nodup hn held waits
  · unfold State.startsAt
    cases held : s.claimOf l n g with
    | none => simp
    | some d => simp [rests d held]

end Sys2Proof.Machine
end

section
/-! PROOF. What leaves the pools alone (O58): the operations of the links, the lines, the fixtures and the safety state change
no claim, no expiry entry, no stamp and no time. -/

namespace Sys2Proof.Machine

/-- What the promises of the pools are about: the claims, the expiry list, the count of the stamps, and the time. -/
structure Pool where
  claims : List Claim
  expiryList : List ExpiryEntry
  stampCount : Nat
  micros : Nat
  clockBase : Nat

def State.pool (s : State) : Pool := ⟨s.claims, s.expiryList, s.stampCount, s.micros, s.clockBase⟩

/-- A fold of changes that leave the pools leaves them. -/
theorem foldl_pool {α : Type} {f : State → α → State} (h : ∀ s a, (f s a).pool = s.pool) (as : List α) (s : State) :
    (as.foldl f s).pool = s.pool := by
  induction as generalizing s with
  | nil => rfl
  | cons a as ih => exact (ih (f s a)).trans (h s a)

section
variable (s : State) (l : Link) (n : SlotNo) (ln : LineNo) (g : Group)

@[simp] theorem State.setLink_pool (r : LinkRec) : (s.setLink l r).pool = s.pool := rfl
@[simp] theorem State.setSlot_pool (x : Slot) : (s.setSlot n x).pool = s.pool := rfl
@[simp] theorem State.setLine_pool (r : LineRec) : (s.setLine ln r).pool = s.pool := rfl
@[simp] theorem State.setChanged_pool : (s.setChanged n).pool = s.pool := rfl
@[simp] theorem State.setFade_pool (x : Option Crossfade) : (s.setFade n g x).pool = s.pool := rfl
@[simp] theorem State.evaluatedAll_pool : (s.evaluatedAll n).pool = s.pool := rfl
@[simp] theorem State.recompute_pool : (s.recompute ln).pool = s.pool := rfl
@[simp] theorem State.mapEnrol_pool (f : EnrolRecord → EnrolRecord) : (s.mapEnrol ln f).pool = s.pool := rfl
@[simp] theorem State.answer_pool (f : Frame) (x : Status) (d : AnswerData) : (s.answer l f x d).pool = s.pool := rfl

/-! ### Notices -/

@[simp] theorem State.raiseTo_pool (x : Notice) : (s.raiseTo l x).pool = s.pool := rfl

@[simp] theorem State.raiseEach_pool (ls : List Link) (x : Notice) : (s.raiseEach ls x).pool = s.pool :=
  foldl_pool (fun s l => s.raiseTo_pool l x) ls s

@[simp] theorem State.raiseAll_pool (x : Notice) : (s.raiseAll x).pool = s.pool := s.raiseEach_pool _ x

@[simp] theorem State.raiseConditions_pool (a b : ConditionSet) : (s.raiseConditions n a b).pool = s.pool :=
  foldl_pool (fun s x => s.raiseAll_pool x) _ s

@[simp] theorem State.putCondition_pool (c : LineCondition) (b : Bool) : (s.putCondition ln c b).pool = s.pool := by
  unfold State.putCondition; split <;> simp

@[simp] theorem State.raisePairChanged_pool (cause : PairCause) (fade : Nat) :
    (s.raisePairChanged cause fade).pool = s.pool := s.raiseEach_pool _ _

@[simp] theorem State.raiseDisplaced_pool (lost : List (Link × SlotNo)) : (s.raiseDisplaced l g lost).pool = s.pool :=
  foldl_pool (fun s l => by dsimp only; split <;> simp) _ s

/-! ### The Safety Layer -/

@[simp] theorem State.setUrgentOnBound_pool : s.setUrgentOnBound.pool = s.pool :=
  foldl_pool (f := State.setUrgent) (fun _ _ => rfl) s.boundSlots s

theorem State.assertSafety_pool : s.assertSafety.pool = s.pool := by
  unfold State.assertSafety
  rw [State.raiseAll_pool, State.setUrgentOnBound_pool]
  rfl

theorem State.releaseSafety_pool : s.releaseSafety.pool = s.pool := by
  unfold State.releaseSafety
  rw [State.raiseAll_pool]
  rfl

theorem State.clearSafety_pool (fade : Nat) : (s.clearSafety fade).pool = s.pool := by
  unfold State.clearSafety
  dsimp only
  rw [State.raiseAll_pool, foldl_pool fun s n => by exact s.setFade_pool n .level _, State.setUrgentOnBound_pool]
  rfl

/-! ### The lines and their fixtures -/

@[simp] theorem State.makeMissing_pool (cause : GoneCause) : (s.makeMissing cause n).pool = s.pool := by
  unfold State.makeMissing; split <;> simp

@[simp] theorem State.endOperation_pool (o : EnrolOutcome) : (s.endOperation ln o).pool = s.pool := by
  unfold State.endOperation; dsimp only; split <;> simp

@[simp] theorem State.stopOperation_pool (c : LineCondition) : (s.stopOperation ln c).pool = s.pool := by
  unfold State.stopOperation; simp

@[simp] theorem State.goOff_pool : (s.goOff ln).pool = s.pool := by
  unfold State.goOff
  dsimp only
  rw [State.recompute_pool, foldl_pool fun s n => s.makeMissing_pool n .lineOff, State.setLine_pool]

@[simp] theorem State.abandonAndGoOff_pool : (s.abandonAndGoOff ln).pool = s.pool := by
  unfold State.abandonAndGoOff; split <;> simp

@[simp] theorem State.endExchange_pool : (s.endExchange ln).pool = s.pool := by
  unfold State.endExchange; dsimp only; split <;> simp

@[simp] theorem State.beginExchange_pool (frame : LineFrame) (rate : Rate) :
    (s.beginExchange ln frame rate).pool = s.pool := rfl

@[simp] theorem State.openWindow_pool (x : Exchange) : (s.openWindow ln x).pool = s.pool := rfl

@[simp] theorem State.startSet_pool (f : Fixture) : (s.startSet ln n f).pool = s.pool := by unfold State.startSet; simp

@[simp] theorem State.startPoll_pool (f : Fixture) : (s.startPoll ln n f).pool = s.pool := by unfold State.startPoll; simp

@[simp] theorem State.startJoining_pool : (s.startJoining ln).pool = s.pool := by unfold State.startJoining; simp

theorem State.pick_pool : (s.pick ln).pool = s.pool := by
  unfold State.pick
  split
  · split
    · split
      · rfl
      · split <;> simp
    · split <;> simp
  · rfl

@[simp] theorem State.disable_pool : (s.disable ln).pool = s.pool := by
  unfold State.disable
  dsimp only
  split
  · rfl
  · split
    · simp
    · split <;> simp

@[simp] theorem State.enable_pool : (s.enable ln).pool = s.pool := by
  unfold State.enable; dsimp only; split <;> simp

@[simp] theorem State.setTypeEntry_pool (k : Fin 16) (x : TypeEntry) : (s.setTypeEntry k x).pool = s.pool := rfl

@[simp] theorem State.writeType_pool (k : Fin 16) (code : BitVec 16) (m : Matrix) : (s.writeType k code m).pool = s.pool := by
  unfold State.writeType
  rw [foldl_pool fun s n => s.setSlot_pool n _, State.setTypeEntry_pool]

@[simp] theorem State.forgetSlot_pool : (s.forgetSlot n).pool = s.pool := by unfold State.forgetSlot; split <;> simp

@[simp] theorem State.typeFor_pool (code : BitVec 16) : (s.typeFor code).1.pool = s.pool := by
  unfold State.typeFor
  split
  · rfl
  · split <;> simp

@[simp] theorem State.bindInto_pool (x : BitVec 40) (a : Nat) (c : Caps) (b : Bool) :
    (s.bindInto n ln x a c b).pool = s.pool := by
  unfold State.bindInto; simp

@[simp] theorem State.ackSet_pool (f : Fixture) (c : ConditionSet) (p q : Nat) : (s.ackSet n f c p q).pool = s.pool := by
  unfold State.ackSet; simp

@[simp] theorem State.ackPoll_pool (f : Fixture) (c : ConditionSet) (p q : Nat) : (s.ackPoll ln n f c p q).pool = s.pool := by
  unfold State.ackPoll; simp

@[simp] theorem State.missSet_pool (f : Fixture) : (s.missSet ln n f).pool = s.pool := by
  unfold State.missSet; dsimp only; split <;> simp

@[simp] theorem State.applySet_pool (o : AckOutcome) : (s.applySet ln n o).pool = s.pool := by
  unfold State.applySet
  split
  · rfl
  · split <;> simp

@[simp] theorem State.applyPoll_pool (o : AckOutcome) : (s.applyPoll ln n o).pool = s.pool := by
  unfold State.applyPoll
  split
  · split <;> simp
  · rfl

@[simp] theorem State.applyOutcome_pool (frame : LineFrame) (o : AckOutcome) : (s.applyOutcome ln frame o).pool = s.pool := by
  have applied : (match frame with
      | .set n .. => s.applySet ln n o
      | .poll n _ => s.applyPoll ln n o
      | _ => s).pool = s.pool := by split <;> simp
  unfold State.applyOutcome
  dsimp only
  split
  · rw [State.putCondition_pool]; exact applied
  · exact applied

theorem State.endReply_pool (reply : List RxChar) : (s.endReply ln reply).pool = s.pool := by
  unfold State.endReply
  split
  · rfl
  · split
    · rfl
    · split <;> simp

theorem State.expireReply_pool : (s.expireReply ln).pool = s.pool := by
  unfold State.expireReply
  split
  · rfl
  · split
    · rfl
    · split <;> simp

theorem State.startEnrolFrame_pool : (s.startEnrolFrame ln).pool = s.pool := by
  unfold State.startEnrolFrame
  dsimp only
  split
  · split
    · rfl
    · split <;> simp
  · rfl

theorem State.endLineFrame_pool : (s.endLineFrame ln).pool = s.pool := by
  unfold State.endLineFrame
  split
  · rfl
  · split <;> simp

theorem State.endAssign_pool : (s.endAssign ln).pool = s.pool := by
  unfold State.endAssign
  split
  · rfl
  · split
    · split <;> simp
    · rfl

@[simp] theorem State.dropAll_pool : (s.dropAll ln).pool = s.pool := by
  unfold State.dropAll
  rw [State.mapEnrol_pool, State.recompute_pool, foldl_pool fun s n => s.makeMissing_pool n .dropped]

theorem State.endDrop_pool : (s.endDrop ln).pool = s.pool := by
  unfold State.endDrop
  split
  · split <;> simp
  · rfl

theorem State.openArbitration_pool : (s.openArbitration ln).pool = s.pool := by
  unfold State.openArbitration; split <;> simp

theorem State.endArbitration_pool (samples : BitVec 40) : (s.endArbitration ln samples).pool = s.pool := by
  unfold State.endArbitration
  split
  · split
    · simp
    · split <;> simp
  · rfl

theorem State.capsFailed_pool (a : Nat) : (s.capsFailed ln a).pool = s.pool := by unfold State.capsFailed; simp

@[simp] theorem State.bindOn_pool (x : BitVec 40) (a : Nat) (c : Caps) (b : Bool) :
    (s.bindOn ln n x a c b).pool = s.pool := by unfold State.bindOn; simp

@[simp] theorem State.refuseBinding_pool (a : Nat) (c : LineCondition) : (s.refuseBinding ln a c).pool = s.pool := by
  unfold State.refuseBinding; simp

theorem State.receiveCaps_pool (x : BitVec 40) (a : Nat) (c : Caps) : (s.receiveCaps ln x a c).pool = s.pool := by
  unfold State.receiveCaps; split <;> simp

@[simp] theorem State.beginEnrolment_pool (o : Operation) (b : SubState) : (s.beginEnrolment ln o b).pool = s.pool := by
  unfold State.beginEnrolment; simp

end

end Sys2Proof.Machine
end

section
/-! PROOF. What keeps the promises of the pools (O58): the operations on claims, on the roles and on steps. -/

namespace Sys2Proof.Machine

/-- A change that keeps the promises of the claim pool, the step pool and the expiry list (R55, R56, R90, R93, R97). -/
structure PoolWork (s t : State) : Prop where
  pools : s.PoolsSound → t.PoolsSound
  records : s.PoolsSound → s.RecordsSound → t.RecordsSound
  timed : s.PoolsSound → s.Timed → t.Timed

section
variable {s t u : State}

theorem PoolWork.refl (s : State) : PoolWork s s := ⟨id, fun _ => id, fun _ => id⟩

theorem PoolWork.trans (h : PoolWork s t) (k : PoolWork t u) : PoolWork s u :=
  ⟨k.pools ∘ h.pools, fun p sound => k.records (h.pools p) (h.records p sound),
    fun p timed => k.timed (h.pools p) (h.timed p timed)⟩

theorem PoolWork.ite {c : Prop} [Decidable c] (ht : c → PoolWork s t) (hu : ¬c → PoolWork s u) :
    PoolWork s (if c then t else u) := by
  split
  · exact ht ‹_›
  · exact hu ‹_›

theorem PoolWork.of_sound (pools : s.PoolsSound → t.PoolsSound ∧ (s.RecordsSound → t.RecordsSound) ∧ (s.Timed → t.Timed)) :
    PoolWork s t := ⟨fun p => (pools p).1, fun p => (pools p).2.1, fun p => (pools p).2.2⟩

/-- R97: a state whose steps have all retired keeps what the pools promise without those of no time. -/
theorem PoolWork.of_core
    (h : s.PoolsSound → t.PoolCore ∧ t.Settled ∧ t.stepRecords.Subperm s.stepRecords ∧ (s.Timed → t.Timed)) : PoolWork s t :=
  .of_sound fun p => by
    obtain ⟨core, settled, records, timed⟩ := h p
    exact ⟨core.sound (records.length_le.trans p.steps_fit) settled, fun sound => sound.subperm records, timed⟩

/-- The promises are about the pools and the time alone. -/
theorem PoolWork.of_pool (h : t.pool = s.pool) : PoolWork s t := by
  have claims : t.claims = s.claims := congrArg Pool.claims h
  have entries : t.expiryList = s.expiryList := congrArg Pool.expiryList h
  have stamps : t.stampCount = s.stampCount := congrArg Pool.stampCount h
  have micros : t.micros = s.micros := congrArg Pool.micros h
  have base : t.clockBase = s.clockBase := congrArg Pool.clockBase h
  have now : t.now = s.now := by unfold State.now; rw [micros, base]
  have records : t.stepRecords = s.stepRecords := by unfold State.stepRecords; rw [claims]
  refine .of_core fun p => ⟨p.core.congr claims entries stamps, ?_, records ▸ .refl _, fun timed => timed.congr claims entries now⟩
  unfold State.Settled
  rw [claims]
  exact p.settled

theorem PoolWork.before (h : PoolWork s t) (e : u.pool = t.pool) : PoolWork s u := h.trans (.of_pool e)

theorem PoolWork.after (h : PoolWork t u) (e : t.pool = s.pool) : PoolWork s u := (PoolWork.of_pool e).trans h

theorem PoolWork.answered (h : PoolWork s t) (l : Link) (f : Frame) (x : Status) (d : AnswerData) :
    PoolWork s (t.answer l f x d) := h.before (t.answer_pool l f x d)

theorem PoolWork.of_empty (claims : t.claims = []) (entries : t.expiryList = []) : PoolWork s t := by
  have records : t.stepRecords = [] := by unfold State.stepRecords; rw [claims]; rfl
  refine ⟨fun _ => State.poolsSound_of_empty claims entries, fun _ _ => ?_, fun _ _ => ⟨?_, ?_, ?_, ?_⟩⟩
  · unfold State.RecordsSound
    rw [records]
    exact ⟨List.nodup_nil, fun _ h => nomatch h⟩
  · rw [claims]; exact fun _ h => nomatch h
  · unfold State.ExpiriesNear; rw [entries]; exact fun _ h => nomatch h
  · unfold State.ExpiriesInOrder; rw [entries]; exact List.Pairwise.nil
  · rw [claims]; exact fun _ h => nomatch h

/-- R66: some claims leave the pool. -/
theorem ClaimsGone.poolWork {gone : Claim → Bool} {fade : Nat} (h : s.PoolsSound → ClaimsGone s t gone fade)
    (frame : s.PoolsSound → t.stampCount = s.stampCount ∧ t.now = s.now) : PoolWork s t := .of_sound fun p => by
  obtain ⟨claims, entries, -⟩ := claimsGone_iff.mp (h p)
  obtain ⟨stamps, now⟩ := frame p
  have sub : t.stepRecords.Sublist s.stepRecords := by
    unfold State.stepRecords
    rw [claims]
    exact List.filter_sublist.flatMap _
  exact ⟨p.filter claims entries stamps, fun sound => sound.subperm sub.subperm, fun timed => timed.filter claims entries now⟩

/-- R60, R77: the roles of the claims change. -/
theorem PoolWork.of_roles {role : Claim → Role} (claims : t.claims = s.claims.map (fun c => { c with role := role c }))
    (entries : t.expiryList = s.expiryList) (stamps : t.stampCount = s.stampCount) (now : t.now = s.now) : PoolWork s t := by
  refine .of_core fun p => ⟨p.core.roles claims entries stamps, fun c hc => ?_, ?_, fun timed => timed.roles claims entries now⟩
  · rw [claims] at hc
    obtain ⟨d, hd, rfl⟩ := List.mem_map.mp hc
    exact p.settled d hd
  · rw [State.stepRecords_roles claims]

end

section
variable (s : State)

/-! ### Claims removed, and roles changed (R66, R77) -/

theorem State.takeRelease_pools (l : Link) (g : Group) {set : SlotSet} {slots : List SlotNo} (named : set.slots = some slots)
    (fade : Nat) (f : Frame) : PoolWork s (s.takeRelease l g slots fade f) := by
  have released := fun p : s.PoolsSound => State.releaseClaims_gone p (clampTime fade) .release
    (fun c => State.mem_claimsIn p) (State.claimsIn_apart (l := l) (g := g) (SlotSet.slots_nodup named))
  refine .ite (fun _ => (PoolWork.refl s).answered l f _ _) fun _ => PoolWork.answered ?_ l f _ _
  exact ClaimsGone.poolWork (fun p => (released p).1) fun p => by rw [(released p).2.2.1]; exact ⟨rfl, rfl⟩

theorem State.changeRoles_pools (p : Pair) (fade : Nat) : PoolWork s (s.changeRoles p fade) := by
  have frame := s.changeRoles_frame p fade
  refine .of_roles (role := fun c => p.roleFor c.link) ?_ ?_ ?_ ?_ <;> rw [frame] <;> rfl

theorem State.swap_pools (fade : Nat) (cause : PairCause) : PoolWork s (s.swap fade cause) :=
  (s.changeRoles_pools _ _).before (State.raisePairChanged_pool _ _ _)

theorem State.changeOverride_pools (on : Bool) (fade : Nat) (cause : PairCause) :
    PoolWork s (s.changeOverride on fade cause) :=
  (s.changeRoles_pools _ _).before (State.raisePairChanged_pool _ _ _)

theorem State.standbySilent_pools : PoolWork s s.standbySilent :=
  .ite (fun _ => (State.changeOverride_pools _ _ _ _).after rfl) fun _ =>
    .ite (fun _ => .of_pool (State.raisePairChanged_pool _ _ _)) fun _ => .refl s

theorem State.consoleLive_pools (l : Link) : PoolWork s (s.consoleLive l) :=
  .ite (fun _ => s.swap_pools _ _) fun _ => .refl s

theorem State.consoleSilent_pools (l : Link) : PoolWork s (s.consoleSilent l) :=
  .ite (fun _ => .ite (fun _ => s.swap_pools _ _) fun _ => .refl s) fun _ => s.standbySilent_pools

theorem State.silence_pools (l : Link) : PoolWork s (s.silence l) := by
  by_cases console : l.tier = 2
  · rw [s.silence_console console]
    exact (State.consoleSilent_pools _ l).after rfl
  · have silenced := fun p : s.PoolsSound => State.silence_feed p console
    exact ClaimsGone.poolWork (fun p => (silenced p).1) fun p => by rw [(silenced p).2.2.1]; exact ⟨rfl, rfl⟩

theorem State.becomeLive_pools (l : Link) : PoolWork s (s.becomeLive l) :=
  .ite (fun _ => (State.consoleLive_pools _ l).after rfl) fun _ => .of_pool rfl

theorem State.arrive_pools (l : Link) (f : Frame) : PoolWork s (s.arrive l f) := (s.becomeLive_pools l).before rfl

theorem State.takeSetLink_pools (l target : Link) (limit fade : Nat) (f : Frame) :
    PoolWork s (s.takeSetLink l target limit fade f) := by
  have stored : (s.storeLinkSettings target limit fade).pool = s.pool := rfl
  unfold State.takeSetLink
  dsimp only
  generalize s.storeLinkSettings target limit fade = u at stored
  exact PoolWork.answered (.ite (fun _ => (u.silence_pools target).after stored) fun _ => .of_pool stored) l f _ _

theorem State.takeOverride_pools (l : Link) (on : Bool) (fade : Nat) (f : Frame) : PoolWork s (s.takeOverride l on fade f) :=
  PoolWork.answered (.ite (fun _ => .refl s) fun _ => s.changeOverride_pools _ _ _) l f _ _

/-! ### Claims seized (R62) -/

theorem Passage.seized_pools {l : Link} {g : Group} {slots : List SlotNo} {t : State} {lost : List (Link × SlotNo)}
    (h : Passage (SlotSeized l g) slots s t lost) :
    t.stepRecords.Subperm s.stepRecords ∧ (s.Settled → t.Settled) ∧ (s.Timed → t.Timed) := by
  induction h with
  | nil => exact ⟨.refl _, id, id⟩
  | cons one _ ih =>
    obtain ⟨records, settled, timed⟩ := ih
    exact ⟨records.trans one.records, settled ∘ one.settled, timed ∘ one.timed⟩

theorem State.takeSeize_pools (l : Link) (g : Group) {set : SlotSet} {slots : List SlotNo} (named : set.slots = some slots)
    (f : Frame) : PoolWork s (s.takeSeize l g slots f) := by
  refine .ite (fun _ => (PoolWork.refl s).answered l f _ _) fun covered => PoolWork.answered ?_ l f _ _
  refine PoolWork.before (.of_core fun p => ?_) (State.raiseDisplaced_pool _ _ _ _)
  have core := p.core
  have passage := State.seizeSlots_passage core ((State.hasRoom_iff core).mpr covered) (SlotSet.slots_nodup named)
  obtain ⟨records, settled, timed⟩ := passage.seized_pools
  exact ⟨passage.core SlotSeized.taken core, settled p.settled, records, timed⟩

end

end Sys2Proof.Machine
end

section
/-! PROOF. What keeps the promises of the pools (O58), on: the operations on steps. -/

namespace Sys2Proof.Machine

/-! ### HALT and SET_MODE (R102, R103) -/

section
variable {s u : State} {c : Claim}

/-- What an operation on one claim of the pool keeps: the promises but those on steps of no time, the records, the times, and
every other claim. -/
structure OnClaim (u v : State) (c : Claim) : Prop where
  core : v.PoolCore
  records : v.stepRecords.Subperm u.stepRecords
  timed : u.Timed → v.Timed
  others : ∀ x ∈ u.claims, x.number ≠ c.number → x ∈ v.claims

/-- Such operations one after another, on different claims; and what each of them keeps besides. -/
theorem OnClaim.foldl {f : State → Claim → State} {P : State → Prop}
    (step : ∀ u c, u.PoolCore → c ∈ u.claims → OnClaim u (f u c) c ∧ (P u → P (f u c)))
    {cs : List Claim} (apart : (cs.map (·.number)).Nodup) (core : u.PoolCore) (mem : ∀ c ∈ cs, c ∈ u.claims) :
    (cs.foldl f u).PoolCore ∧ (cs.foldl f u).stepRecords.Subperm u.stepRecords ∧ (u.Timed → (cs.foldl f u).Timed) ∧
      (P u → P (cs.foldl f u)) := by
  induction cs generalizing u with
  | nil => exact ⟨core, .refl _, id, id⟩
  | cons c cs ih =>
    obtain ⟨fresh, apart⟩ := List.nodup_cons.mp apart
    obtain ⟨one, kept⟩ := step u c core (mem c List.mem_cons_self)
    obtain ⟨core', records, timed, rest⟩ := ih apart one.core fun x hx =>
      one.others x (mem x (List.mem_cons_of_mem c hx)) fun e => fresh (List.mem_map.mpr ⟨x, hx, e⟩)
    exact ⟨core', records.trans one.records, timed ∘ one.timed, rest ∘ kept⟩

/-- The claim that a HALT freezes runs a step of no time at its own value. -/
def Claim.halted (c : Claim) (r : RunningStep) (now : Reading) : Claim :=
  { c with
    running := some (Step.runFrom { record := r.step.record, target := c.ownValue now, duration := 0, dwell := 0
                                    curve := .linear, tie := false } (c.ownValue now) now false)
    queue := [] }

theorem State.haltClaim_claims (core : u.PoolCore) (mem : c ∈ u.claims) {r : RunningStep} (run : c.running = some r) :
    (u.haltClaim c).claims = rewritten (c.halted r u.now) u.claims ∧
      (u.haltClaim c).expiryList = reentered c.number (c.halted r u.now).running u.expiryList ∧
      (u.haltClaim c).stampCount = u.stampCount ∧ (u.haltClaim c).now = u.now := by
  have returned := State.returnSteps_rewritten core.numbers_differ mem rfl (rewritten_self core.numbers_differ mem).symm
  have started := State.startStep_rewritten (d := { c with running := none, queue := [] }) core.numbers_differ mem rfl returned
    c.slot { record := r.step.record, target := c.ownValue u.now, duration := 0, dwell := 0, curve := .linear, tie := false }
    (c.ownValue u.now) u.now false
  unfold State.haltClaim
  rw [run]
  exact ⟨started, rfl, rfl, rfl⟩

/-- R102: a HALT freezes a claim. -/
theorem State.haltClaim_onClaim (core : u.PoolCore) (mem : c ∈ u.claims) : OnClaim u (u.haltClaim c) c := by
  cases run : c.running with
  | none =>
    have same : u.haltClaim c = u := by unfold State.haltClaim; rw [run]
    rw [same]
    exact ⟨core, .refl _, id, fun x hx _ => hx⟩
  | some r =>
    obtain ⟨claims, entries, stamps, now⟩ := State.haltClaim_claims core mem run
    have number : (c.halted r u.now).number = c.number := rfl
    have pool := core.in_pool c mem
    have records : (c.halted r u.now).records.Subperm c.records := by
      have one : (c.halted r u.now).records = [r.step.record] := rfl
      rw [one, Claim.records_eq, Claim.steps, run]
      exact (List.nil_sublist _).cons_cons _ |>.subperm
    refine ⟨core.rewrite mem number rfl claims (.inl entries) stamps.ge (.inl rfl) ?_,
      core.rewrite_subperm mem number claims records, fun timed => ?_, fun x hx ne => ?_⟩
    · exact ⟨pool.number_fits, Nat.zero_le _, pool.low_fits, stamps ▸ pool.order_past, fun rests => nomatch rests⟩
    · have fits : Step.TimesFit { record := r.step.record, target := c.ownValue u.now, duration := 0, dwell := 0
                                  curve := .linear, tie := false } := ⟨Nat.zero_le _, Nat.zero_le _⟩
      refine timed.rewrite core mem number claims (.inl entries) now (fun x hx => ?_) (.inr fun q hq => ?_)
      · rw [List.mem_singleton.mp hx]; exact fits
      · rw [← Option.some.inj hq]
        have here := timeLeft_self u.now
        exact Step.runFrom_near (by unfold ExpiryNear; omega) here.le fits
    · rw [claims, mem_rewritten core.numbers_differ mem number]
      exact .inr ⟨hx, ne⟩

/-- R103: a claim takes a mode and a low mark. -/
def Claim.withMode (c : Claim) (mode : Mode) (low : Nat) : Claim :=
  { c with mode := mode, lowMark := low, armed := c.armed || decide (low < c.queue.length) }

theorem State.setModeOf_onClaim {mode : Mode} {low : Nat} (fits : low ≤ 7) (core : u.PoolCore) (mem : c ∈ u.claims) :
    OnClaim u (u.setModeOf mode low c) c ∧ (u.Settled → (u.setModeOf mode low c).Settled) := by
  have one := State.mapClaim_rewritten core.numbers_differ mem (change := fun c => { c with mode := mode, lowMark := low }) rfl
  have claims : (u.setModeOf mode low c).claims = rewritten (c.withMode mode low) u.claims :=
    State.arm_rewritten (d := { c with mode := mode, lowMark := low }) core.numbers_differ mem rfl one
  have number : (c.withMode mode low).number = c.number := rfl
  have now : (u.setModeOf mode low c).now = u.now := rfl
  have pool := core.in_pool c mem
  refine ⟨⟨core.rewrite (d := c.withMode mode low) mem number rfl claims (.inr ⟨rfl, rfl⟩) le_rfl (.inl rfl) ?_,
    core.rewrite_subperm mem number claims (.refl _), fun timed => ?_, fun x hx ne => ?_⟩, fun settled x hx => ?_⟩
  · exact ⟨pool.number_fits, pool.queue_fits, fits, pool.order_past, pool.queue_behind⟩
  · exact timed.rewrite (d := c.withMode mode low) core mem number claims (.inr rfl) now (timed.times c mem) (.inl rfl)
  · rw [claims, mem_rewritten core.numbers_differ mem number]
    exact .inr ⟨hx, ne⟩
  · rw [claims, mem_rewritten core.numbers_differ mem number] at hx
    rcases hx with rfl | ⟨hx, -⟩
    · exact settled c mem
    · exact settled x hx

theorem State.PoolCore.claimsIn_numbers (core : s.PoolCore) {l : Link} {g : Group} {slots : List SlotNo} (nodup : slots.Nodup) :
    ((s.claimsIn l g slots).map (·.number)).Nodup := by
  unfold State.claimsIn
  rw [List.map_filterMap]
  refine nodup.filterMap fun n m k hn hm => ?_
  by_contra ne
  exact core.number_apart (Ne.symm ne) hn hm

end

section
variable (s : State)

theorem State.takeHalt_pools (l : Link) (g : Group) {set : SlotSet} {slots : List SlotNo} (named : set.slots = some slots)
    (f : Frame) : PoolWork s (s.takeHalt l g slots f) := by
  refine .ite (fun _ => (PoolWork.refl s).answered l f _ _) fun _ => PoolWork.answered (.of_core fun p => ?_) l f _ _
  obtain ⟨core, records, timed, -⟩ := OnClaim.foldl (f := State.haltClaim) (P := fun _ => True)
    (fun u c core mem => ⟨State.haltClaim_onClaim core mem, id⟩)
    (p.core.claimsIn_numbers (l := l) (g := g) (SlotSet.slots_nodup named)) p.core
    fun c hc => (p.core.mem_claimsIn.mp hc).1
  have fits := records.length_le.trans p.steps_fit
  obtain ⟨core', settled, -, records'⟩ := core.settleSteps fits
  exact ⟨core', settled, records'.trans records, fun before => (timed before).settleSteps core fits⟩

theorem State.takeSetMode_pools (l : Link) (g : Group) {set : SlotSet} {slots : List SlotNo} (named : set.slots = some slots)
    {mode : Mode} {low : Nat} (fits : low ≤ 7) (f : Frame) : PoolWork s (s.takeSetMode l g slots mode low f) := by
  refine .ite (fun _ => (PoolWork.refl s).answered l f _ _) fun _ => PoolWork.answered (.of_core fun p => ?_) l f _ _
  obtain ⟨core, records, timed, settled⟩ := OnClaim.foldl (f := fun s c => s.setModeOf mode low c)
    (fun u c core mem => State.setModeOf_onClaim fits core mem)
    (p.core.claimsIn_numbers (l := l) (g := g) (SlotSet.slots_nodup named)) p.core
    fun c hc => (p.core.mem_claimsIn.mp hc).1
  exact ⟨core, settled p.settled, records, timed⟩

/-! ### STEP (R94 to R101) -/

theorem State.takeStep_pools (q : StepRequest) (low : q.LowFits) {set : SlotSet} {slots : List SlotNo}
    (named : set.slots = some slots) {fields : List StepFields} (filled : 1 ≤ fields.length) (few : fields.length ≤ 8) (f : Frame) :
    PoolWork s (s.stepOrRefuse q slots fields f) := by
  unfold State.stepOrRefuse
  cases test : s.stepTest q slots fields.length with
  | some status => exact (PoolWork.refl s).answered q.link f _ _
  | none =>
    refine PoolWork.answered (.of_sound fun p => ?_) q.link f _ _
    obtain ⟨x, rest, rfl⟩ : ∃ x rest, fields = x :: rest := List.exists_cons_of_length_pos filled
    obtain ⟨v, taken⟩ := State.takeStep_taken (x := x) p.core p.settled ((State.stepTest_none_iff p).mp test)
      (SlotSet.slots_nodup named) low few
    obtain ⟨fits, records⟩ := taken.records
    exact ⟨taken.core.sound fits taken.settled, records, taken.timed⟩

/-! ### Expiry (R97, R98) -/

theorem State.retireDue_pools : PoolWork s s.retireDue := by
  unfold State.retireDue
  cases list : s.expiryList with
  | nil => exact .refl s
  | cons e es =>
    refine .ite (fun due => ?_) fun _ => .refl s
    cases found : s.claim e.claim with
    | none => exact .refl s
    | some c =>
      dsimp only
      cases run : c.running with
      | none => exact .refl s
      | some r =>
        refine .of_core fun p => ?_
        have core := p.core
        obtain ⟨mem, number⟩ := core.claim_iff.mp found
        have core' := core.retire (r := r) mem
        have records := core.retire_subperm mem run
        have fits := records.length_le.trans p.steps_fit
        obtain ⟨core'', settled, -, records'⟩ := core'.settleSteps fits
        refine ⟨core'', settled, records'.trans records, fun timed => (timed.retire core mem run ?_).settleSteps core' fits⟩
        have head : e ∈ s.expiryList := list ▸ List.mem_cons_self
        have near := timed.near e head
        obtain ⟨d, hd, entry⟩ := List.mem_filterMap.mp (core.entries.mem_iff.mp head)
        obtain ⟨number', q, run', expiry⟩ := Claim.entry_eq_some.mp entry
        obtain rfl := core.number_inj hd mem (number'.trans number.symm)
        obtain rfl := Option.some.inj (run.symm.trans run')
        have here := timeLeft_self s.now
        rw [expiry, ← here]
        exact (notAfter_iff_timeLeft near (by unfold ExpiryNear; omega)).mp due

end

end Sys2Proof.Machine
end

section
/-! PROOF. Every command keeps the promises of the claim pool, the step pool and the expiry list, and time keeps them too
(O58). -/

namespace Sys2Proof.Machine

/-! ### Rows -/

section
variable {s t : State}

theorem poolWork_of_running {effect : State → State} (h : (.next (s.whenRunning effect) : Result) = .next t)
    (work : PoolWork s (effect s)) : PoolWork s t := by
  cases h
  exact .ite (fun _ => .refl s) fun _ => work

/-- A row whose effect is not on the pools. -/
theorem poolWork_of_elsewhere {effect : State → State} (h : (.next (s.whenRunning effect) : Result) = .next t)
    (elsewhere : (effect s).pool = s.pool) : PoolWork s t := poolWork_of_running h (.of_pool elsewhere)

theorem poolWork_of_taking {l : Link} {take : State → Frame → Request → Option State}
    (h : (.next (s.whenRunning fun s => s.takeInHand l (take s)) : Result) = .next t)
    (work : ∀ f r u, f.request = some r → take s f r = some u → PoolWork s u) : PoolWork s t := by
  refine poolWork_of_running h ?_
  unfold State.takeInHand
  cases (s.link l).inHand with
  | none => exact .refl s
  | some f =>
    cases asked : f.request with
    | none => simpa only [asked] using PoolWork.refl s
    | some r =>
      simp only [asked]
      cases taken : take s f r with
      | none => exact .refl s
      | some u => exact work f r u asked taken

theorem State.refuse_pools (s : State) (l : Link) (f : Frame) (x : Status) : PoolWork s (s.refuse l f x) :=
  (PoolWork.refl s).answered l f x .none

theorem State.withSlots_pools {l : Link} {f : Frame} {set : SlotSet} {go : List SlotNo → State}
    (work : ∀ slots, set.slots = some slots → PoolWork s (go slots)) : PoolWork s (s.withSlots l f set go) := by
  unfold State.withSlots
  cases named : set.slots with
  | none => exact s.refuse_pools l f _
  | some slots => exact work slots named

theorem State.withPermission_pools {l : Link} {f : Frame} {permitted : Bool} {go : State} (work : PoolWork s go) :
    PoolWork s (s.withPermission l f permitted go) := .ite (fun _ => work) fun _ => s.refuse_pools l f _

end

/-! ### Takings on the pair, the fixtures and the lines -/

section
variable (s : State) (l : Link) (f : Frame)

theorem State.takeAsk_pools : PoolWork s (s.takeAsk l f) :=
  .ite (fun _ => s.refuse_pools l f _) fun _ => .of_pool rfl

theorem State.takeDecline_pools : PoolWork s (s.takeDecline l f) := by
  refine PoolWork.answered (.ite (fun _ => ?_) fun _ => .refl s) l f _ _
  exact .of_pool rfl

theorem State.takeSafeClear_pools (fade : Nat) : PoolWork s (s.takeSafeClear l fade f) := by
  unfold State.takeSafeClear
  cases s.safety with
  | holding => exact s.refuse_pools l f _
  | clear => exact (PoolWork.refl s).answered l f _ _
  | latched => exact (PoolWork.of_pool (s.clearSafety_pool _)).answered l f _ _

theorem State.takeSetLine_pools (x : LineSettings) : PoolWork s (s.takeSetLine l x f) := by
  refine PoolWork.answered (.ite (fun _ => .of_pool ?_) fun _ => .of_pool ?_) l f _ _ <;> simp

theorem State.takeEnrol_pools (ln : LineNo) (o : Operation) (b : SubState) : PoolWork s (s.takeEnrol l ln o b f) :=
  .ite (fun _ => s.refuse_pools l f _) fun _ => .ite (fun _ => s.refuse_pools l f _) fun _ =>
    (PoolWork.of_pool (s.beginEnrolment_pool ln o b)).answered l f _ _

theorem State.takeSetType_pools (code : BitVec 16) (matrix : Matrix) : PoolWork s (s.takeSetType l code matrix f) := by
  have written := fun k => (PoolWork.of_pool (s.writeType_pool k code matrix)).answered l f .ok (.entry k.val)
  unfold State.takeSetType
  cases s.entryOf code with
  | some k => exact written k
  | none =>
    cases s.unusedEntry with
    | some k => exact written k
    | none => exact s.refuse_pools l f _

theorem State.takeForget_pools (slots : List SlotNo) : PoolWork s (s.takeForget l slots f) :=
  .ite (fun _ => s.refuse_pools l f _) fun _ =>
    (PoolWork.of_pool (foldl_pool State.forgetSlot_pool slots s)).answered l f _ _

theorem State.takeReadLine_pools (ln : LineNo) : PoolWork s (s.takeReadLine l ln f) :=
  (PoolWork.of_pool (s.putCondition_pool ln _ _)).answered l f _ _

theorem State.ageStamp_pool (which : StampRef) : (s.ageStamp which).pool = s.pool := by cases which <;> rfl

end

/-! ### Every command -/

theorem exec_pools (c : Instr) (s t : State) (h : exec c s = .next t) : PoolWork s t := by
  cases c with
  | powerOnReset cause =>
    cases h
    cases cause with
    | supplyRise => exact .of_pool rfl
    | resetNLow => exact .ite (fun _ => .of_pool rfl) fun _ => .refl s
  | leaveReset => cases h; exact .ite (fun _ => .of_empty rfl rfl) fun _ => .refl s
  | resetNChange high => cases h; exact .ite (fun _ => .refl s) fun _ => .of_pool rfl
  | safeNChange high => cases h; exact .ite (fun _ => .refl s) fun _ => .of_pool rfl
  | safetyAssertion =>
    exact poolWork_of_running h (.ite (fun _ => .of_pool s.assertSafety_pool) fun _ => .refl s)
  | safetyRelease =>
    exact poolWork_of_running h (.ite (fun _ => .of_pool s.releaseSafety_pool) fun _ => .refl s)
  | stampBecomesOld which => exact poolWork_of_elsewhere h (s.ageStamp_pool which)
  | frameArrival l chars =>
    refine poolWork_of_running h ?_
    dsimp only
    split
    · exact .of_pool rfl
    · exact (State.arrive_pools _ l _).after rfl
  | silenceTimeout l => exact poolWork_of_running h (.ite (fun _ => s.silence_pools l) fun _ => .refl s)
  | transmitStart l => exact poolWork_of_elsewhere h rfl
  | transmitDone l => exact poolWork_of_elsewhere h rfl
  | unknownKind l =>
    refine poolWork_of_running h ?_
    split
    · exact .refl s
    · split
      · exact s.refuse_pools l _ _
      · exact .refl s
  | seize l =>
    refine poolWork_of_taking h fun f r u _ e => ?_
    split at e <;> cases e
    exact State.withSlots_pools fun slots named => s.takeSeize_pools l _ named f
  | release l =>
    refine poolWork_of_taking h fun f r u _ e => ?_
    split at e <;> cases e
    exact State.withSlots_pools fun slots named => s.takeRelease_pools l _ named _ f
  | stepReplace l =>
    refine poolWork_of_taking h fun f r u asked e => ?_
    split at e <;> cases e
    obtain ⟨⟨-, low, filled, few, -⟩, -⟩ := (requestsAreReadAsWritten f _).mp asked
    exact State.withSlots_pools fun slots named => s.takeStep_pools ⟨l, _, _, _, _⟩ low named filled few f
  | stepAppend l =>
    refine poolWork_of_taking h fun f r u asked e => ?_
    split at e <;> cases e
    obtain ⟨⟨-, low, filled, few, -⟩, -⟩ := (requestsAreReadAsWritten f _).mp asked
    exact State.withSlots_pools fun slots named => s.takeStep_pools ⟨l, _, _, _, _⟩ low named filled few f
  | halt l =>
    refine poolWork_of_taking h fun f r u _ e => ?_
    split at e <;> cases e
    exact State.withSlots_pools fun slots named => s.takeHalt_pools l _ named f
  | setMode l =>
    refine poolWork_of_taking h fun f r u asked e => ?_
    split at e <;> cases e
    obtain ⟨⟨-, low⟩, -⟩ := (requestsAreReadAsWritten f _).mp asked
    exact State.withSlots_pools fun slots named => s.takeSetMode_pools l _ named low f
  | stepExpiry => exact poolWork_of_running h s.retireDue_pools
  | handoverAsk l =>
    refine poolWork_of_taking h fun f r u _ e => ?_
    split at e <;> cases e
    exact State.withPermission_pools (s.takeAsk_pools l f)
  | handoverDecline l =>
    refine poolWork_of_taking h fun f r u _ e => ?_
    split at e <;> cases e
    exact State.withPermission_pools (s.takeDecline_pools l f)
  | handoverGive l =>
    refine poolWork_of_taking h fun f r u _ e => ?_
    split at e <;> cases e
    exact State.withPermission_pools ((s.swap_pools _ _).answered l f _ _)
  | overrideOn l =>
    refine poolWork_of_taking h fun f r u _ e => ?_
    split at e <;> cases e
    exact State.withPermission_pools (s.takeOverride_pools l _ _ f)
  | overrideOff l =>
    refine poolWork_of_taking h fun f r u _ e => ?_
    split at e <;> cases e
    exact State.withPermission_pools (s.takeOverride_pools l _ _ f)
  | setPair l =>
    refine poolWork_of_taking h fun f r u _ e => ?_
    split at e <;> cases e
    exact State.withPermission_pools (.of_pool rfl)
  | safeClear l =>
    refine poolWork_of_taking h fun f r u _ e => ?_
    split at e <;> cases e
    exact State.withPermission_pools (s.takeSafeClear_pools l f _)
  | setLine l =>
    refine poolWork_of_taking h fun f r u _ e => ?_
    split at e <;> cases e
    exact State.withPermission_pools (s.takeSetLine_pools l f _)
  | enrolLineFull l =>
    refine poolWork_of_taking h fun f r u _ e => ?_
    split at e <;> cases e
    exact State.withPermission_pools (s.takeEnrol_pools l f _ _ _)
  | enrolLineJoin l =>
    refine poolWork_of_taking h fun f r u _ e => ?_
    split at e <;> cases e
    exact State.withPermission_pools (s.takeEnrol_pools l f _ _ _)
  | setType l =>
    refine poolWork_of_taking h fun f r u _ e => ?_
    split at e <;> cases e
    exact State.withPermission_pools (s.takeSetType_pools l f _ _)
  | forget l =>
    refine poolWork_of_taking h fun f r u _ e => ?_
    split at e <;> cases e
    exact State.withSlots_pools fun slots _ => State.withPermission_pools (s.takeForget_pools l f slots)
  | setLink l =>
    refine poolWork_of_taking h fun f r u _ e => ?_
    split at e <;> cases e
    exact State.withPermission_pools (s.takeSetLink_pools l _ _ _ f)
  | rigClear l =>
    refine poolWork_of_taking h fun f r u _ e => ?_
    split at e <;> cases e
    exact State.withPermission_pools (PoolWork.answered (.of_empty rfl rfl) l f _ _)
  | keep l =>
    refine poolWork_of_taking h fun f r u _ e => ?_
    split at e <;> cases e
    exact (PoolWork.refl s).answered l f _ _
  | readSlot l =>
    refine poolWork_of_taking h fun f r u _ e => ?_
    split at e
    · split at e <;> cases e
      · exact s.refuse_pools l f _
      · exact .of_pool rfl
    · cases e
  | readClaims l =>
    refine poolWork_of_taking h fun f r u _ e => ?_
    split at e
    · split at e <;> cases e
      · exact s.refuse_pools l f _
      · exact .of_pool rfl
    · cases e
  | readLine l =>
    refine poolWork_of_taking h fun f r u _ e => ?_
    split at e <;> cases e
    exact s.takeReadLine_pools l f _
  | readType l =>
    refine poolWork_of_taking h fun f r u _ e => ?_
    split at e <;> cases e
    exact (PoolWork.refl s).answered l f _ _
  | readPart l =>
    refine poolWork_of_taking h fun f r u _ e => ?_
    split at e <;> cases e
    exact (PoolWork.refl s).answered l f _ _
  | schedulerPick ln => exact poolWork_of_elsewhere h (s.pick_pool ln)
  | enrolFrameStart ln => exact poolWork_of_elsewhere h (s.startEnrolFrame_pool ln)
  | lineFrameEnd ln => exact poolWork_of_elsewhere h (s.endLineFrame_pool ln)
  | replyEnd ln reply => exact poolWork_of_elsewhere h (s.endReply_pool ln reply)
  | replyWindowExpiry ln => exact poolWork_of_elsewhere h (s.expireReply_pool ln)
  | lateCharacters ln => exact poolWork_of_running h (.ite (fun _ => .of_pool rfl) fun _ => .refl s)
  | dropDone ln => exact poolWork_of_elsewhere h (s.endDrop_pool ln)
  | callDone ln => exact poolWork_of_elsewhere h (s.openArbitration_pool ln)
  | arbitrationEnd ln samples => exact poolWork_of_elsewhere h (s.endArbitration_pool ln samples)
  | assignDone ln => exact poolWork_of_elsewhere h (s.endAssign_pool ln)
  | capsReceived ln reply =>
    refine poolWork_of_running h ?_
    split
    · exact .refl s
    · split
      · exact .refl s
      · exact .ite (fun _ => .of_pool (s.receiveCaps_pool ln _ _ _)) fun _ => .refl s
  | capsWindowExpiry ln =>
    refine poolWork_of_running h ?_
    split
    · exact .refl s
    · exact .ite (fun _ => .of_pool (s.capsFailed_pool ln _)) fun _ => .refl s
  | capsFailure ln reply =>
    refine poolWork_of_running h ?_
    split
    · exact .refl s
    · split
      · exact .refl s
      · exact .ite (fun _ => .of_pool (s.capsFailed_pool ln _)) fun _ => .refl s

/-! ### Time -/

section
variable {s : State}

/-- The time of the clock goes on by a millisecond, or stands. -/
theorem State.tick_now : s.tick.now = s.now ∨ s.tick.now = s.now + 1#32 := by
  have floor : (s.micros + 1 - s.clockBase) / 1000 = (s.micros - s.clockBase) / 1000 ∨
      (s.micros + 1 - s.clockBase) / 1000 = (s.micros - s.clockBase) / 1000 + 1 := by omega
  unfold State.now State.tick
  dsimp only
  rcases floor with same | next
  · exact .inl (by rw [same])
  · exact .inr (by rw [next, BitVec.ofNat_add])

/-- In a millisecond the time left to an expiry that is not far overdue falls by 1. -/
theorem timeLeft_succ {now expiry : Reading} (near : ExpiryNear now expiry) :
    timeLeft (now + 1#32) expiry = timeLeft now expiry - 1 := by
  unfold ExpiryNear timeLeft at *
  have less : expiry - (now + 1#32) = (expiry - now) - 1#32 := by bv_omega
  rw [less]
  generalize expiry - now = d at *
  simp only [BitVec.toInt_eq_toNat_cond, BitVec.toNat_sub, BitVec.toNat_ofNat] at *
  have := d.isLt
  split at near <;> split <;> omega

/-- While time passes, every expiry comes nearer by the same. -/
theorem State.ExpiriesNear.tick (near : s.ExpiriesNear) :
    ∃ k : Int, 0 ≤ k ∧ ∀ e ∈ s.expiryList, timeLeft s.tick.now e.time = timeLeft s.now e.time - k := by
  rcases State.tick_now (s := s) with same | next
  · exact ⟨0, le_rfl, fun e _ => by rw [same, sub_zero]⟩
  · exact ⟨1, one_pos.le, fun e he => by rw [next, timeLeft_succ (near e he)]⟩

end

section
variable {s t : State}

theorem State.ValuesSound.times (values : s.ValuesSound) : ∀ c ∈ s.claims, ∀ x ∈ c.steps, x.TimesFit := by
  intro c hc x hx
  obtain ⟨-, running, queue⟩ := values.claim_fits c hc
  rcases List.mem_append.mp hx with hx | hx
  · obtain ⟨r, run, rfl⟩ := Option.map_eq_some_iff.mp (Option.mem_toList.mp hx)
    obtain ⟨-, -, times⟩ := running r run
    exact times
  · obtain ⟨-, times⟩ := queue x hx
    exact times

theorem State.PoolsSound.timed (p : s.PoolsSound) (values : s.ValuesSound) (near : s.ExpiriesNear)
    (order : s.ExpiriesInOrder) : s.Timed where
  times := values.times
  near := near
  order := order
  instant_due c hc r run instant := by simp [p.settled c hc r run] at instant

/-- What O58 says of a command. -/
theorem PoolWork.poolsStay (h : PoolWork s t) (p : s.PoolsSound) : t.PoolsSound ∧ (s.RecordsSound → t.RecordsSound) ∧
    (s.ValuesSound → s.ExpiriesNear → s.ExpiriesInOrder →
      t.ExpiriesInOrder ∧ ∀ e ∈ t.expiryList, timeLeft t.now e.time ≤ 1200000) := by
  refine ⟨h.pools p, h.records p, fun values near order => ?_⟩
  have timed := h.timed p (p.timed values near order)
  exact ⟨timed.order, fun e he => (timed.near e he).2⟩

theorem State.PoolsSound.tick (p : s.PoolsSound) : s.tick.PoolsSound ∧ (s.RecordsSound → s.tick.RecordsSound) ∧
    (s.ValuesSound → s.ExpiriesNear → s.ExpiriesInOrder →
      s.tick.ExpiriesInOrder ∧ ∀ e ∈ s.tick.expiryList, timeLeft s.tick.now e.time ≤ 1200000) := by
  have core : s.tick.PoolCore := p.core.congr rfl rfl rfl
  refine ⟨core.sound p.steps_fit p.settled, id, fun _ near order => ?_⟩
  obtain ⟨k, nonneg, passed⟩ := near.tick
  refine ⟨order.imp_of_mem fun hd he before => ?_, fun e he => ?_⟩
  · rw [passed _ hd, passed _ he]
    exact sub_le_sub_right before k
  · obtain ⟨-, ahead⟩ := near e he
    rw [passed e he]
    exact (sub_le_self _ nonneg).trans ahead

end

/-- Settles O58: a command works on the pools only as `PoolWork` says, and time brings every expiry nearer by the same. -/
theorem poolsStaySound : Obligations.PoolsStaySound := fun s t p h => by
  unfold step at h
  split at h
  · rename_i c rest _
    have queue : PoolWork s { s with pending := rest } := .of_pool rfl
    exact (queue.trans (exec_pools c _ t h)).poolsStay p
  · cases h
    exact p.tick

end Sys2Proof.Machine
end
